-- ==== Sys2Proof/Word.lean ====
section
/-! DEFINITION. The word types of 00_scope.md rule R11 and the byte sequences of rule R13. -/

namespace Sys2Proof

/-- `U8`, an octet (rule R11). -/
abbrev U8 := BitVec 8

/-- `U16`, an unsigned 16-bit integer (rule R11). -/
abbrev U16 := BitVec 16

/-- `ByteSeq`, a finite list of octets in wire order (rules R13, R15). -/
abbrev ByteSeq := List U8

end Sys2Proof
end

