-- ==== Sys2Proof/Syntax.lean ====
section
/-! DEFINITION. The operations of the block as syntax: the operand types of the command interface
(30_encoding.md rules R77, R78), one constructor of `Instr` per row of spec/opcode_table.json, and the
assembler lines of rule R79. -/

namespace Sys2Proof

/-- The eight supported functions (00_scope.md rule R17), which are the keys of the tracker
(10_state.md rule R21). -/
inductive FnKey where
  | rc | rdi | rhr | rir | wsc | wsr | wmc | wmr
  deriving DecidableEq, Repr

/-- `Values` (rule R78): none, coil values or register values. -/
inductive Values where
  | none
  | coils (l : List Bool)
  | regs (l : List U16)
  deriving DecidableEq, Repr

/-- `Symbol` (rule R78): an octet, or an input element that is no valid octet. -/
inductive Symbol where
  | byte (b : U8)
  | bad
  deriving DecidableEq, Repr

/-- `Direction` (rule R78). -/
inductive Direction where
  | request | response
  deriving DecidableEq, Repr

/-- The request descriptor of `ENCODE` but for the function code (41_encoder.md rule R120). -/
structure Descriptor where
  slaveId      : U8
  startAddress : U16
  quantity     : U16
  values       : Values
  deriving DecidableEq, Repr

/-- A received frame but for its byte 1, which the instruction's row fixes: byte 0, the bytes from
index 2 to the end (the two CRC bytes included), and the direction operand (42_decoder.md rules R150,
R152, R155). -/
structure RespFrame where
  slaveId   : U8
  tail      : ByteSeq
  direction : Direction
  deriving DecidableEq, Repr

/-- The frame's bytes, given its byte 1. -/
def RespFrame.bytes (f : RespFrame) (fb : U8) : ByteSeq := f.slaveId :: fb :: f.tail

/-- `InvalidRequest` causes (60_exceptions.md rule R201). -/
inductive InvalidCause where
  | function | slave | quantity | values
  deriving DecidableEq, Repr

/-- `MalformedFrame` causes (60_exceptions.md rule R203). -/
inductive MalformedCause where
  | short | badOctet
  deriving DecidableEq, Repr

/-- One constructor per row of spec/opcode_table.json, in the table's order: the sixteen command-word
rows, then the ten dispatch classes of `DECODE` on frame byte 1 (rule R80). -/
inductive Instr where
  | crcCompute (bytes : ByteSeq)
  | crcInit
  | crcUpdate (b : U8)
  | crcRead
  | encodeRc (d : Descriptor)
  | encodeRdi (d : Descriptor)
  | encodeRhr (d : Descriptor)
  | encodeRir (d : Descriptor)
  | encodeWsc (d : Descriptor)
  | encodeWsr (d : Descriptor)
  | encodeWmc (d : Descriptor)
  | encodeWmr (d : Descriptor)
  | encodeOther (fc : U8) (d : Descriptor)
  | decode (input : List Symbol) (direction : Direction) (reqStart : Option U16)
  | lookup (fc : U8)
  | reset
  | decException (fc : BitVec 7) (f : RespFrame)
  | decRc (f : RespFrame) (reqStart : Option U16)
  | decRdi (f : RespFrame) (reqStart : Option U16)
  | decRhr (f : RespFrame) (reqStart : Option U16)
  | decRir (f : RespFrame) (reqStart : Option U16)
  | decWsc (f : RespFrame)
  | decWsr (f : RespFrame)
  | decWmc (f : RespFrame)
  | decWmr (f : RespFrame)
  | decUnknown (fc : BitVec 7) (f : RespFrame)
  deriving DecidableEq, Repr

/-- The operands that travel beside the command word (rule R77). Every field is present in every
request; an operation uses the ones its row names (DESIGN CHOICE, safe; log entry 6). -/
structure Operands where
  bytes        : ByteSeq
  slaveId      : U8
  startAddress : U16
  quantity     : U16
  values       : Values
  input        : List Symbol
  direction    : Direction
  reqStart     : Option U16
  deriving DecidableEq, Repr

/-- One operation as the host issues it: the 12-bit command word (rule R77) and its operands. -/
structure Request where
  cmd : BitVec 12
  ops : Operands
  deriving DecidableEq, Repr

/-- The assembler lines of rule R79. -/
inductive Asm where
  | crcCompute (bytes : ByteSeq)
  | crcInit
  | crcUpdate (b : U8)
  | crcRead
  | encodeRc (s : U8) (a q : U16)
  | encodeRdi (s : U8) (a q : U16)
  | encodeRhr (s : U8) (a q : U16)
  | encodeRir (s : U8) (a q : U16)
  | encodeWsc (s : U8) (a : U16) (on : Bool)
  | encodeWsr (s : U8) (a v : U16)
  | encodeWmc (s : U8) (a q : U16) (coils : List Bool)
  | encodeWmr (s : U8) (a q : U16) (regs : List U16)
  | encode (fc s : U8) (a q : U16) (values : Values)
  | decode (input : List Symbol) (dir : Direction) (start : Option U16)
  | lookup (fc : U8)
  | reset
  deriving DecidableEq, Repr

end Sys2Proof
end

