-- ==== Sys2Proof/WellFormed.lean ====
section
/-! DEFINITION. Which terms of `Instr` stand for an instruction: the conditions that the opcode table
puts on a row beside its bits. -/

namespace Sys2Proof

/-- The eight supported function codes (30_encoding.md rule R61). -/
def supportedCodes : List U8 :=
  [0x01#8, 0x02#8, 0x03#8, 0x04#8, 0x05#8, 0x06#8, 0x0F#8, 0x10#8]

/-- A frame that reaches a dispatch class has at least 5 bytes (42_decoder.md rule R151), so at least
3 after byte 1. -/
def RespFrame.longEnough (f : RespFrame) : Bool := 3 ≤ f.tail.length

/-- The well-formed instructions. `ENCODE.OTHER` has no supported code (rule R80: it is matched only
after the eight `ENCODE` rows), a dispatch class has a frame of at least 5 bytes, and `DEC.UNKNOWN`
has a byte 1 with bit 7 clear that is no supported code (42_decoder.md rule R168). -/
def Instr.wellFormed : Instr → Bool
  | .crcCompute _ => true
  | .crcInit => true
  | .crcUpdate _ => true
  | .crcRead => true
  | .encodeRc _ => true
  | .encodeRdi _ => true
  | .encodeRhr _ => true
  | .encodeRir _ => true
  | .encodeWsc _ => true
  | .encodeWsr _ => true
  | .encodeWmc _ => true
  | .encodeWmr _ => true
  | .encodeOther fc _ => !supportedCodes.contains fc
  | .decode _ _ _ => true
  | .lookup _ => true
  | .reset => true
  | .decException _ f => f.longEnough
  | .decRc f _ => f.longEnough
  | .decRdi f _ => f.longEnough
  | .decRhr f _ => f.longEnough
  | .decRir f _ => f.longEnough
  | .decWsc f => f.longEnough
  | .decWsr f => f.longEnough
  | .decWmc f => f.longEnough
  | .decWmr f => f.longEnough
  | .decUnknown fc f => f.longEnough && !supportedCodes.contains (fc.setWidth 8)

end Sys2Proof
end

