-- ==== Sys2Proof/Decode.lean ====
section
/-! DEFINITION. The decoder and the encoder of operations. The command word selects a `cmd12` row of the
opcode table; a `DECODE` whose input is well formed is then resolved to its `frame_byte1` row
(30_encoding.md rules R77, R80). Both tables below are the opcode table's `match` and `mask` columns. -/

namespace Sys2Proof

/-! ### Function codes -/

/-- The function code of each supported function (rule R61). -/
def FnKey.code : FnKey → U8
  | .rc => 0x01#8
  | .rdi => 0x02#8
  | .rhr => 0x03#8
  | .rir => 0x04#8
  | .wsc => 0x05#8
  | .wsr => 0x06#8
  | .wmc => 0x0F#8
  | .wmr => 0x10#8

/-- The supported function of a function-code byte, if it is one of the eight (rule R61). -/
def fnKey? (fc : U8) : Option FnKey :=
  if fc = 0x01#8 then some .rc
  else if fc = 0x02#8 then some .rdi
  else if fc = 0x03#8 then some .rhr
  else if fc = 0x04#8 then some .rir
  else if fc = 0x05#8 then some .wsc
  else if fc = 0x06#8 then some .wsr
  else if fc = 0x0F#8 then some .wmc
  else if fc = 0x10#8 then some .wmr
  else none

/-! ### Rows of the opcode table -/

/-- A row of the opcode table: a word `x` of width `w` matches when `(x & mask) = pattern` (rule R80). -/
structure TableRow (ρ : Type) (w : Nat) where
  row     : ρ
  pattern : BitVec w
  mask    : BitVec w

/-- Whether a word matches a row. -/
def TableRow.matches {ρ : Type} {w : Nat} (r : TableRow ρ w) (x : BitVec w) : Bool :=
  x &&& r.mask == r.pattern

/-- The first row of a table that a word matches. -/
def selectRow {ρ : Type} {w : Nat} : List (TableRow ρ w) → BitVec w → Option ρ
  | [], _ => none
  | r :: t, x => if r.matches x then some r.row else selectRow t x

/-- The command-word rows. -/
inductive CmdRow where
  | crcCompute | crcInit | crcUpdate | crcRead
  | encode (k : FnKey) | encodeOther | decode | lookup | reset
  deriving DecidableEq, Repr

/-- The `cmd12` rows, in the table's order; `ENCODE.OTHER` comes after the eight exact `ENCODE` rows
(rule R80). -/
def cmdTable : List (TableRow CmdRow 12) :=
  [ ⟨.crcCompute, 0x100#12, 0xFFF#12⟩,
    ⟨.crcInit, 0x200#12, 0xFFF#12⟩,
    ⟨.crcUpdate, 0x300#12, 0xF00#12⟩,
    ⟨.crcRead, 0x400#12, 0xFFF#12⟩,
    ⟨.encode .rc, 0x501#12, 0xFFF#12⟩,
    ⟨.encode .rdi, 0x502#12, 0xFFF#12⟩,
    ⟨.encode .rhr, 0x503#12, 0xFFF#12⟩,
    ⟨.encode .rir, 0x504#12, 0xFFF#12⟩,
    ⟨.encode .wsc, 0x505#12, 0xFFF#12⟩,
    ⟨.encode .wsr, 0x506#12, 0xFFF#12⟩,
    ⟨.encode .wmc, 0x50F#12, 0xFFF#12⟩,
    ⟨.encode .wmr, 0x510#12, 0xFFF#12⟩,
    ⟨.encodeOther, 0x500#12, 0xF00#12⟩,
    ⟨.decode, 0x600#12, 0xFFF#12⟩,
    ⟨.lookup, 0x700#12, 0xF00#12⟩,
    ⟨.reset, 0xF00#12, 0xFFF#12⟩ ]

/-- The dispatch classes of `DECODE`. -/
inductive FrameRow where
  | exception | key (k : FnKey) | unknown
  deriving DecidableEq, Repr

/-- The `frame_byte1` rows in ascending `match_order` (rule R80): the exception class, the eight exact
codes, the unknown class. -/
def frameTable : List (TableRow FrameRow 8) :=
  [ ⟨.exception, 0x80#8, 0x80#8⟩,
    ⟨.key .rc, 0x01#8, 0xFF#8⟩,
    ⟨.key .rdi, 0x02#8, 0xFF#8⟩,
    ⟨.key .rhr, 0x03#8, 0xFF#8⟩,
    ⟨.key .rir, 0x04#8, 0xFF#8⟩,
    ⟨.key .wsc, 0x05#8, 0xFF#8⟩,
    ⟨.key .wsr, 0x06#8, 0xFF#8⟩,
    ⟨.key .wmc, 0x0F#8, 0xFF#8⟩,
    ⟨.key .wmr, 0x10#8, 0xFF#8⟩,
    ⟨.unknown, 0x00#8, 0x00#8⟩ ]

/-! ### The command word -/

/-- `op = cmd[11:8]` (rule R77). -/
def cmdOp (cmd : BitVec 12) : BitVec 4 := cmd.extractLsb' 8 4

/-- `arg = cmd[7:0]` (rule R77). -/
def cmdArg (cmd : BitVec 12) : U8 := cmd.extractLsb' 0 8

/-- The command word of an operation code and an argument byte (rule R77). -/
def cmdWord (op : BitVec 4) (arg : U8) : BitVec 12 := (op.setWidth 12 <<< 8) ||| arg.setWidth 12

/-- Why a command word has no meaning (rule R77; 60_exceptions.md rule R209). -/
inductive DecodeError where
  /-- The operation code is 0x0 or one of 0x8 to 0xE. -/
  | reservedOp
  /-- The argument byte is nonzero where rule R77 requires 0x00. -/
  | nonzeroArg
  deriving DecidableEq, Repr

/-- The reserved operation codes: 0x0 and 0x8 to 0xE (rule R77). -/
def reservedOp (op : BitVec 4) : Bool := op == 0x0#4 || (0x8#4 ≤ op && op ≤ 0xE#4)

/-- The name of the refusal of a word that matches no row. -/
def rejection (cmd : BitVec 12) : DecodeError :=
  if reservedOp (cmdOp cmd) then .reservedOp else .nonzeroArg

/-! ### From a row to the instruction -/

/-- The descriptor operands of a request (rule R120). -/
def Operands.descriptor (o : Operands) : Descriptor :=
  { slaveId := o.slaveId, startAddress := o.startAddress, quantity := o.quantity, values := o.values }

/-- The `ENCODE` instruction of a supported function. -/
def encodeInstr (k : FnKey) (d : Descriptor) : Instr :=
  match k with
  | .rc => .encodeRc d
  | .rdi => .encodeRdi d
  | .rhr => .encodeRhr d
  | .rir => .encodeRir d
  | .wsc => .encodeWsc d
  | .wsr => .encodeWsr d
  | .wmc => .encodeWmc d
  | .wmr => .encodeWmr d

/-- The instruction of a command-word row (rule R77's table). -/
def CmdRow.toInstr (r : CmdRow) (arg : U8) (o : Operands) : Instr :=
  match r with
  | .crcCompute => .crcCompute o.bytes
  | .crcInit => .crcInit
  | .crcUpdate => .crcUpdate arg
  | .crcRead => .crcRead
  | .encode k => encodeInstr k o.descriptor
  | .encodeOther => .encodeOther arg o.descriptor
  | .decode => .decode o.input o.direction o.reqStart
  | .lookup => .lookup arg
  | .reset => .reset

/-- The instruction of a dispatch class, for a frame with byte 1 `fb` (42_decoder.md rule R150). Only
the four read classes take `reqStart` (rule R167). -/
def FrameRow.toInstr (r : FrameRow) (fb : U8) (f : RespFrame) (reqStart : Option U16) : Instr :=
  match r with
  | .exception => .decException (fb.setWidth 7) f
  | .key .rc => .decRc f reqStart
  | .key .rdi => .decRdi f reqStart
  | .key .rhr => .decRhr f reqStart
  | .key .rir => .decRir f reqStart
  | .key .wsc => .decWsc f
  | .key .wsr => .decWsr f
  | .key .wmc => .decWmc f
  | .key .wmr => .decWmr f
  | .unknown => .decUnknown (fb.setWidth 7) f

/-! ### Well-formed input -/

/-- The octets of a symbol sequence, if every element is one. -/
def octets : List Symbol → Option ByteSeq
  | [] => some []
  | .byte b :: t => (octets t).map (b :: ·)
  | .bad :: _ => none

/-- `check_wellformed` (42_decoder.md rule R151): at least 5 elements, counting `bad` ones, then no
`bad` element. -/
def checkWellformed (input : List Symbol) : Except MalformedCause ByteSeq :=
  if input.length < 5 then .error .short
  else match octets input with
    | none => .error .badOctet
    | some s => .ok s

/-! ### Decoding -/

/-- The first level: the command-word row's instruction, or the refusal's name. -/
def decodeCommand (r : Request) : Except DecodeError Instr :=
  match selectRow cmdTable r.cmd with
  | some row => .ok (row.toInstr (cmdArg r.cmd) r.ops)
  | none => .error (rejection r.cmd)

/-- The second level: a `DECODE` whose input is well formed is its dispatch class's instruction; any
other stays `DECODE`, whose meaning reports `MalformedFrame` (rules R150, R151; log entry 5). -/
def dispatchFrame (input : List Symbol) (direction : Direction) (reqStart : Option U16) : Instr :=
  match checkWellformed input with
  | .ok (sid :: fb :: tail) =>
    match selectRow frameTable fb with
    | some row => row.toInstr fb { slaveId := sid, tail := tail, direction := direction } reqStart
    | none => .decode input direction reqStart
  | .ok _ => .decode input direction reqStart
  | .error _ => .decode input direction reqStart

/-- The whole decoder: total on every request, refusing by name. -/
def decode (r : Request) : Except DecodeError Instr :=
  match decodeCommand r with
  | .ok (.decode input direction reqStart) => .ok (dispatchFrame input direction reqStart)
  | .ok i => .ok i
  | .error e => .error e

/-! ### Encoding -/

/-- Operands that an operation does not use. -/
def Operands.zero : Operands :=
  { bytes := [], slaveId := 0#8, startAddress := 0#16, quantity := 0#16, values := .none,
    input := [], direction := .request, reqStart := none }

/-- A request with an argument byte and no operand beside the word. -/
def plainRequest (op : BitVec 4) (arg : U8) : Request := ⟨cmdWord op arg, Operands.zero⟩

/-- The `ENCODE` request of a function-code byte (rule R77: `0x500 | fc`). -/
def encodeRequest (fc : U8) (d : Descriptor) : Request :=
  ⟨cmdWord 0x5#4 fc,
    { Operands.zero with
      slaveId := d.slaveId, startAddress := d.startAddress,
      quantity := d.quantity, values := d.values }⟩

/-- The `DECODE` request of an input (rule R77: 0x600). -/
def decodeRequest (input : List Symbol) (direction : Direction) (reqStart : Option U16) : Request :=
  ⟨cmdWord 0x6#4 0x00#8,
    { Operands.zero with input := input, direction := direction, reqStart := reqStart }⟩

/-- The `DECODE` request that delivers a frame with byte 1 `fb`. -/
def frameRequest (fb : U8) (f : RespFrame) (reqStart : Option U16) : Request :=
  decodeRequest ((f.bytes fb).map .byte) f.direction reqStart

/-- The request that encodes an instruction (rules R77, R62, R73). -/
def encode : Instr → Request
  | .crcCompute bytes => ⟨cmdWord 0x1#4 0x00#8, { Operands.zero with bytes := bytes }⟩
  | .crcInit => plainRequest 0x2#4 0x00#8
  | .crcUpdate b => plainRequest 0x3#4 b
  | .crcRead => plainRequest 0x4#4 0x00#8
  | .encodeRc d => encodeRequest 0x01#8 d
  | .encodeRdi d => encodeRequest 0x02#8 d
  | .encodeRhr d => encodeRequest 0x03#8 d
  | .encodeRir d => encodeRequest 0x04#8 d
  | .encodeWsc d => encodeRequest 0x05#8 d
  | .encodeWsr d => encodeRequest 0x06#8 d
  | .encodeWmc d => encodeRequest 0x0F#8 d
  | .encodeWmr d => encodeRequest 0x10#8 d
  | .encodeOther fc d => encodeRequest fc d
  | .decode input direction reqStart => decodeRequest input direction reqStart
  | .lookup fc => plainRequest 0x7#4 fc
  | .reset => plainRequest 0xF#4 0x00#8
  | .decException fc f => frameRequest (0x80#8 ||| fc.setWidth 8) f none
  | .decRc f reqStart => frameRequest 0x01#8 f reqStart
  | .decRdi f reqStart => frameRequest 0x02#8 f reqStart
  | .decRhr f reqStart => frameRequest 0x03#8 f reqStart
  | .decRir f reqStart => frameRequest 0x04#8 f reqStart
  | .decWsc f => frameRequest 0x05#8 f none
  | .decWsr f => frameRequest 0x06#8 f none
  | .decWmc f => frameRequest 0x0F#8 f none
  | .decWmr f => frameRequest 0x10#8 f none
  | .decUnknown fc f => frameRequest (fc.setWidth 8) f none

/-! ### The assembler (rule R79) -/

/-- The request of a generic `encode FC, S, A, Q, VALUES` line. -/
def asmEncode (fc s : U8) (a q : U16) (v : Values) : Request :=
  encodeRequest fc { slaveId := s, startAddress := a, quantity := q, values := v }

/-- The one request that an assembler line stands for. -/
def assemble : Asm → Request
  | .crcCompute bytes => ⟨0x100#12, { Operands.zero with bytes := bytes }⟩
  | .crcInit => ⟨0x200#12, Operands.zero⟩
  | .crcUpdate b => ⟨0x300#12 ||| b.setWidth 12, Operands.zero⟩
  | .crcRead => ⟨0x400#12, Operands.zero⟩
  | .encodeRc s a q => asmEncode 0x01#8 s a q .none
  | .encodeRdi s a q => asmEncode 0x02#8 s a q .none
  | .encodeRhr s a q => asmEncode 0x03#8 s a q .none
  | .encodeRir s a q => asmEncode 0x04#8 s a q .none
  | .encodeWsc s a on => asmEncode 0x05#8 s a 1#16 (.coils [on])
  | .encodeWsr s a v => asmEncode 0x06#8 s a 1#16 (.regs [v])
  | .encodeWmc s a q l => asmEncode 0x0F#8 s a q (.coils l)
  | .encodeWmr s a q l => asmEncode 0x10#8 s a q (.regs l)
  | .encode fc s a q v => asmEncode fc s a q v
  | .decode input dir start =>
    ⟨0x600#12, { Operands.zero with input := input, direction := dir, reqStart := start }⟩
  | .lookup fc => ⟨0x700#12 ||| fc.setWidth 12, Operands.zero⟩
  | .reset => ⟨0xF00#12, Operands.zero⟩

/-! ### Words as the opcode table numbers them -/

/-- The request whose bits are `w`, for a row of the opcode table that has `nbits` bits. A row of more
than 8 bits is a command word (its 12 bits; the port has no further bit), with zero operands. A row of
at most 8 bits is byte 1 of the shortest frame, 5 bytes, whose other bytes are zero, delivered by a
`DECODE` (log entry 8). -/
def tableRequest (nbits w : Nat) : Request :=
  if nbits ≤ 8 then
    decodeRequest ([0x00#8, BitVec.ofNat 8 w, 0x00#8, 0x00#8, 0x00#8].map .byte) .request none
  else ⟨BitVec.ofNat 12 w, Operands.zero⟩

/-- The instruction that the decoder reads from the word `w` of a row with `nbits` bits. -/
def decodeTableWord (nbits w : Nat) : Option Instr :=
  match decode (tableRequest nbits w) with
  | .ok i => some i
  | .error _ => none

end Sys2Proof
end

