-- ==== Sys2Proof/Config.lean ====
section
/-! DEFINITION. The implementation parameters of 00_scope.md rules R8 and R9. They are fixed when the
block is instantiated; no step writes them (10_state.md rules R20, R30). -/

namespace Sys2Proof

/-- The open parameters: the quantity caps (rule R8) and the decoder's input limit (rule R9, `none`
for a block that accepts every length). `QMAX_WSC` and `QMAX_WSR` are fixed at 1 and are no field. -/
structure Config where
  qmaxRc   : Nat
  qmaxRdi  : Nat
  qmaxRhr  : Nat
  qmaxRir  : Nat
  qmaxWmc  : Nat
  qmaxWmr  : Nat
  rxMaxLen : Option Nat
  deriving DecidableEq, Repr

/-- Every parameter is within its structural bound (rule R8's table, D31). -/
abbrev Config.wf (c : Config) : Prop :=
  (1 ≤ c.qmaxRc ∧ c.qmaxRc ≤ 65535) ∧ (1 ≤ c.qmaxRdi ∧ c.qmaxRdi ≤ 65535) ∧
  (1 ≤ c.qmaxRhr ∧ c.qmaxRhr ≤ 65535) ∧ (1 ≤ c.qmaxRir ∧ c.qmaxRir ≤ 65535) ∧
  (1 ≤ c.qmaxWmc ∧ c.qmaxWmc ≤ 2040) ∧ (1 ≤ c.qmaxWmr ∧ c.qmaxWmr ≤ 127) ∧
  ∀ n ∈ c.rxMaxLen, 5 ≤ n

/-- DESIGN CHOICE (unsafe; log entry 2): the values rule R8 lists as "default if a model must pick
one", and no input limit. Only `State.reset` uses them. -/
def Config.default : Config :=
  { qmaxRc := 2000, qmaxRdi := 2000, qmaxRhr := 125, qmaxRir := 125,
    qmaxWmc := 1968, qmaxWmr := 123, rxMaxLen := none }

end Sys2Proof
end

