-- ==== Sys2Proof/Machine/State.lean ====
section
/-! DEFINITION. The state of the block, the results of its operations and the reasons a step can stop.
The architectural state is `T` and `ACC` (10_state.md rule R20); the other fields are the parameters of
the instance and the boundary with the host and the transport, which are the model's own (log entries
1 to 4). The block has no memory (20_memory.md rule R40), so there is none here. -/

namespace Sys2Proof.Machine

/-- A tracker entry (10_state.md rule R21). -/
inductive Entry where
  | unknown
  | known (q : U16)
  deriving DecidableEq, Repr

/-- The Pending-Request Tracker `T`: one entry per supported function code (rule R21). -/
structure Tracker where
  rc  : Entry
  rdi : Entry
  rhr : Entry
  rir : Entry
  wsc : Entry
  wsr : Entry
  wmc : Entry
  wmr : Entry
  deriving DecidableEq, Repr

/-- Every entry `unknown` (10_state.md rule R27). -/
def Tracker.empty : Tracker :=
  { rc := .unknown, rdi := .unknown, rhr := .unknown, rir := .unknown,
    wsc := .unknown, wsr := .unknown, wmc := .unknown, wmr := .unknown }

/-- `FunctionKind` (42_decoder.md rule R154). -/
inductive FunctionKind where
  | rc | rdi | rhr | rir | wsc | wsr | wmc | wmr | unknown
  deriving DecidableEq, Repr

/-- `ExcDesc`, the description of a Modbus exception code (42_decoder.md rule R158). -/
inductive ExcDesc where
  | illegalFunction | illegalDataAddress | illegalDataValue | slaveDeviceFailure
  | acknowledge | slaveDeviceBusy | memoryParityError | gatewayPathUnavailable
  | gatewayTargetFailed | unknownException
  deriving DecidableEq, Repr

/-- `DecodedValues` (42_decoder.md rule R154). -/
inductive DecodedValues where
  | bits (l : List Bool)
  | regs (l : List U16)
  | coilEcho (value : Option Bool) (raw : Option U16)
  | regEcho (value : Option U16)
  | qtyEcho (quantity : Option U16)
  | exception (code : U8) (description : ExcDesc)
  | empty
  deriving DecidableEq, Repr

/-- `DecodedResponse` (42_decoder.md rule R154). -/
structure DecodedResponse where
  slaveId      : U8
  functionCode : U8
  kind         : FunctionKind
  isException  : Bool
  crcValid     : Bool
  startAddress : Option U16
  values       : DecodedValues
  rawFrame     : ByteSeq
  direction    : Direction
  deriving DecidableEq, Repr

/-- What an operation returns (30_encoding.md rule R77, column "result"): a value, or an error outcome
with its cause (60_exceptions.md rules R200, R207). `noValue` is the result "none". -/
inductive Result where
  | noValue
  | crc (v : U16)
  | frame (f : ByteSeq)
  | invalidRequest (cause : InvalidCause)
  | decoded (r : DecodedResponse)
  | malformedFrame (cause : MalformedCause)
  | entry (e : Entry)
  deriving DecidableEq, Repr

/-- The state. -/
structure State where
  /-- The Pending-Request Tracker (rule R21). -/
  T       : Tracker
  /-- The CRC accumulator of the streaming generator (rule R26). -/
  ACC     : U16
  /-- The parameters fixed at instantiation (00_scope.md rules R8, R9); no step writes them. -/
  cfg     : Config
  /-- The operations the host has issued and the block has not yet run, first to run first: the total
  order of 20_memory.md rule R50. -/
  pending : List Request
  /-- What the last operation returned; `noValue` before the first. -/
  result  : Result
  /-- The frames handed to the transport's `write`, oldest first (41_encoder.md rule R135). -/
  emitted : List ByteSeq
  deriving DecidableEq, Repr

/-- The block faults on nothing: an error outcome is a result, and the next operation runs from the
unchanged state (60_exceptions.md rules R200, R207, R208; log entry 7). So this type has no constructor,
nobody raises it, and it is safe. -/
inductive Fault where
  deriving DecidableEq, Repr

/-- Why a step has no meaning. -/
inductive Refusal where
  /-- Raised by `exec`'s arm of an instruction that has no meaning yet. Safe: nothing is provable of a
  run that ends so. No arm uses it. -/
  | notModelled (mnemonic : String)
  /-- Raised by the fetch of a command word with a reserved operation code (60_exceptions.md rule R209).
  Safe: the rule itself refuses the word. -/
  | reservedOp
  /-- Raised by the fetch of a command word with a nonzero argument byte where 0x00 is required (rule
  R209). Safe: the rule itself refuses the word. -/
  | nonzeroArg
  /-- Raised by the `DECODE` family for an input longer than `RX_MAX_LEN` (00_scope.md rule R9). Safe:
  the rule itself refuses the input. -/
  | rxTooLong
  deriving DecidableEq, Repr

/-- The block with parameters `c` at power-on (70_reset_and_hazards.md rule R231; 10_state.md rule R27):
every tracker entry `unknown`, `ACC = 0xFFFF`; nothing issued, returned or emitted (DESIGN CHOICE, safe;
log entries 1, 3, 4). -/
def State.powerOn (c : Config) : State :=
  { T := Tracker.empty, ACC := 0xFFFF#16, cfg := c, pending := [], result := .noValue, emitted := [] }

/-- The block right after reset, for the parameter values of log entry 2. -/
def State.reset : State := State.powerOn Config.default

end Sys2Proof.Machine
end

