-- ==== Sys2Proof/Machine/Operands.lean ====
section
/-! DEFINITION. Operand assembly: byte order, slices, packed bits and register lists (00_scope.md rules
R12, R13; 20_memory.md rules R41 to R43; 30_encoding.md rule R75), and the maps from a function code. -/

namespace Sys2Proof.Machine

/-- `hi8(v) = v[15:8]` (rule R12). -/
def hi8 (v : U16) : U8 := v.extractLsb' 8 8

/-- `lo8(v) = v[7:0]` (rule R12). -/
def lo8 (v : U16) : U8 := v.extractLsb' 0 8

/-- `be16(h, l) = (zext_16(h) << 8) | zext_16(l)` (rule R12). -/
def be16 (h l : U8) : U16 := (h.setWidth 16 <<< 8) ||| l.setWidth 16

/-- The two octets of a 16-bit payload field, high first (rule R41). -/
def beBytes (v : U16) : ByteSeq := [hi8 v, lo8 v]

/-- `s[a..b)` (rule R13). -/
def slice (s : ByteSeq) (a b : Nat) : ByteSeq := (s.take b).drop a

/-- `s[i]`, for an index within `s` (rule R13). No rule reads outside a frame. -/
def byteAt (s : ByteSeq) (i : Nat) : U8 := s.getD i 0#8

/-- Packed byte `j` of a coil list: coil `8 j + i` is its bit `i`, and unused high bits are 0 (rules R43,
R66). -/
def packByte (l : List Bool) (j : Nat) : U8 :=
  (List.range 8).foldl (fun d i => if l.getD (8 * j + i) false then d ||| (1#8 <<< i) else d) 0#8

/-- The packed bytes `D0..D(N-1)` of a coil list, `N = ceil(len/8)` (41_encoder.md rule R133). -/
def packBits (l : List Bool) : ByteSeq := (List.range ((l.length + 7) / 8)).map (packByte l)

/-- The first `q` packed elements of `data` (rule R43; 42_decoder.md rule R159). -/
def unpackBits (data : ByteSeq) (q : Nat) : List Bool :=
  (List.range q).map fun k => (byteAt data (k / 8)).getLsbD (k % 8)

/-- A register list as octets, each value high octet first (41_encoder.md rule R134). -/
def regBytes (l : List U16) : ByteSeq := l.flatMap beBytes

/-- The complete registers in `data`; a trailing lone byte is ignored (42_decoder.md rule R161). -/
def readRegs (data : ByteSeq) : List U16 :=
  (List.range (data.length / 2)).map fun k => be16 (byteAt data (2 * k)) (byteAt data (2 * k + 1))

/-- The data region of a read response, `s[3 .. min(3 + s[2], L - 2))` (42_decoder.md rule R152). -/
def dataRegion (s : ByteSeq) : ByteSeq :=
  slice s 3 (min (3 + (byteAt s 2).toNat) (s.length - 2))

/-- The echo field at index `p`, present iff `p + 2 <= L - 2` (42_decoder.md rule R152). -/
def echoField (s : ByteSeq) (p : Nat) : Option U16 :=
  if p + 2 ≤ s.length - 2 then some (be16 (byteAt s p) (byteAt s (p + 1))) else none

/-- The coil values of an operand that `values_ok` has accepted (41_encoder.md rule R124). -/
def coilList : Values → List Bool
  | .coils l => l
  | .regs _ => []
  | .none => []

/-- The register values of an operand that `values_ok` has accepted (41_encoder.md rule R124). -/
def regList : Values → List U16
  | .regs l => l
  | .coils _ => []
  | .none => []

/-- The kind of a supported function (00_scope.md rule R17). -/
def keyKind : FnKey → FunctionKind
  | .rc => .rc
  | .rdi => .rdi
  | .rhr => .rhr
  | .rir => .rir
  | .wsc => .wsc
  | .wsr => .wsr
  | .wmc => .wmc
  | .wmr => .wmr

/-- `kind_of` (42_decoder.md rule R154). -/
def kindOf (fc : U8) : FunctionKind :=
  match fnKey? fc with
  | some k => keyKind k
  | none => .unknown

/-- The quantity cap `QMAX(fc)` (00_scope.md rule R8). -/
def qmax (c : Config) : FnKey → Nat
  | .rc => c.qmaxRc
  | .rdi => c.qmaxRdi
  | .rhr => c.qmaxRhr
  | .rir => c.qmaxRir
  | .wsc => 1
  | .wsr => 1
  | .wmc => c.qmaxWmc
  | .wmr => c.qmaxWmr

/-- Whether the decoder's buffer holds an input of length `n` (00_scope.md rule R9). -/
def rxFits (c : Config) (n : Nat) : Bool :=
  match c.rxMaxLen with
  | some m => n ≤ m
  | none => true

/-- The numeric code of an `InvalidRequest` cause (60_exceptions.md rule R201). -/
def invalidCode : InvalidCause → Nat
  | .function => 1
  | .slave => 2
  | .quantity => 3
  | .values => 4

/-- The numeric code of a `MalformedFrame` cause (60_exceptions.md rule R203). -/
def malformedCode : MalformedCause → Nat
  | .short => 1
  | .badOctet => 2

end Sys2Proof.Machine
end

