-- ==== Sys2Proof/Machine/CrcFn.lean ====
section
/-! DEFINITION. The CRC-16/Modbus function and the sealing of a frame (40_crc.md rules R100, R101, R106). -/

namespace Sys2Proof.Machine

/-- One iteration of the bit loop of `crc_byte` (rule R101): the low bit tested is the one before the
shift, and the shift comes before the XOR. -/
def crcShift (a : U16) : U16 :=
  if a.getLsbD 0 then (a >>> 1) ^^^ 0xA001#16 else a >>> 1

/-- `n` iterations of the bit loop. -/
def crcShifts : Nat → U16 → U16
  | 0, a => a
  | n + 1, a => crcShifts n (crcShift a)

/-- `crc_byte(a, b)` (rule R101). -/
def crcByte (a : U16) (b : U8) : U16 := crcShifts 8 (a ^^^ b.setWidth 16)

/-- The accumulator after the bytes of `s`, starting from `a`. -/
def crcFrom : U16 → ByteSeq → U16
  | a, [] => a
  | a, b :: s => crcFrom (crcByte a b) s

/-- `crc16(s)` (rule R100). -/
def crc16 (s : ByteSeq) : U16 := crcFrom 0xFFFF#16 s

/-- `crc_append(body)`: the CRC follows, low octet first (rule R106; 20_memory.md rule R42). -/
def crcAppend (body : ByteSeq) : ByteSeq := body ++ [lo8 (crc16 body), hi8 (crc16 body)]

end Sys2Proof.Machine
end

