-- ==== Sys2Proof/Machine/Flags.lean ====
section
/-! DEFINITION. The reported conditions. The block has no persistent flag (10_state.md rule R29); the two
Booleans of a decoded response are computed here (60_exceptions.md rules R204, R205). -/

namespace Sys2Proof.Machine

/-- `crc_ok(f)` (40_crc.md rule R107), the flag `crcValid` of every decoded response (42_decoder.md rule
R153). -/
def crcOk (f : ByteSeq) : Bool :=
  crc16 (slice f 0 (f.length - 2)) == be16 (byteAt f (f.length - 1)) (byteAt f (f.length - 2))

/-- Bit 7 of the function-code byte marks an exception response (30_encoding.md rule R62). -/
def exceptionBit (fb : U8) : Bool := fb.getLsbD 7

end Sys2Proof.Machine
end

