-- ==== Sys2Proof/Machine/Ops.lean ====
section
/-! DEFINITION. The named operations over the state: the tracker, the accumulator, returning a result,
an error outcome, handing a frame to the transport, and fetching the next operation. -/

namespace Sys2Proof.Machine

/-- `T[fc]` (10_state.md rule R21; 00_scope.md rule R14). -/
def Tracker.get (t : Tracker) : FnKey → Entry
  | .rc => t.rc
  | .rdi => t.rdi
  | .rhr => t.rhr
  | .rir => t.rir
  | .wsc => t.wsc
  | .wsr => t.wsr
  | .wmc => t.wmc
  | .wmr => t.wmr

/-- `T[fc] <- e` (rule R21). -/
def Tracker.set (t : Tracker) (k : FnKey) (e : Entry) : Tracker :=
  match k with
  | .rc => { t with rc := e }
  | .rdi => { t with rdi := e }
  | .rhr => { t with rhr := e }
  | .rir => { t with rir := e }
  | .wsc => { t with wsc := e }
  | .wsr => { t with wsr := e }
  | .wmc => { t with wmc := e }
  | .wmr => { t with wmr := e }

/-- The entry of any byte: `unknown` for one that is no key (rule R22; 43_tracker.md rule R191). -/
def Tracker.lookup (t : Tracker) (fc : U8) : Entry :=
  match fnKey? fc with
  | some k => t.get k
  | none => .unknown

/-- End an operation with its result (rule R14: `return v`). -/
def State.answer (s : State) (r : Result) : State := { s with result := r }

/-- End an operation with an error outcome (60_exceptions.md rule R207): the outcome is its only record,
nothing is saved and nothing else changes. There is no return operation (rule R208). -/
def State.raise (s : State) (r : Result) : State := s.answer r

/-- `ACC <- v` (10_state.md rule R26). -/
def State.setAcc (s : State) (v : U16) : State := { s with ACC := v }

/-- `RECORD(fc, q)` (43_tracker.md rule R190). -/
def State.record (s : State) (k : FnKey) (q : U16) : State := { s with T := s.T.set k (.known q) }

/-- `emit f` (41_encoder.md rule R135): the transport's `write` is called once with the frame. -/
def State.emit (s : State) (f : ByteSeq) : State := { s with emitted := s.emitted ++ [f] }

/-- The writes of `RESET` (70_reset_and_hazards.md rule R230): `T`, then `ACC`. -/
def State.clear (s : State) : State := { s with T := Tracker.empty, ACC := 0xFFFF#16 }

/-- Take the first pending request off the queue. -/
def State.advance (s : State) : State := { s with pending := s.pending.tail }

/-- The refusal of a command word that matches no row (60_exceptions.md rule R209). -/
def refusalOf : DecodeError → Refusal
  | .reservedOp => .reservedOp
  | .nonzeroArg => .nonzeroArg

/-- The next operation: `none` when the host has issued nothing, else the instruction of the first
pending request, or its refusal. -/
def State.fetch (s : State) : Option (Except Refusal Instr) :=
  match s.pending with
  | [] => none
  | r :: _ =>
    match decode r with
    | .ok i => some (.ok i)
    | .error e => some (.error (refusalOf e))

/-- Put a request in front of the queue, so that the next step fetches it. -/
def State.place (s : State) (r : Request) : State := { s with pending := r :: s.pending }

end Sys2Proof.Machine
end

