-- ==== Sys2Proof/Machine/Control.lean ====
section
/-! DEFINITION. `LOOKUP` (43_tracker.md rule R191) and `RESET` (70_reset_and_hazards.md rule R230). -/

namespace Sys2Proof.Machine

/-- `LOOKUP` (rule R191): any byte. -/
def execLookup (fc : U8) (s : State) : Host.Outcome State Fault Refusal :=
  .next (s.answer (.entry (s.T.lookup fc)))

/-- `RESET` (rule R230). It recalls no emitted frame and takes no request off the queue: it writes `T`
and `ACC` only, and returns no value. -/
def execReset (s : State) : Host.Outcome State Fault Refusal :=
  .next (s.clear.answer .noValue)

end Sys2Proof.Machine
end

