-- ==== Sys2Proof/Machine/Decoder.lean ====
section
/-! DEFINITION. The frame decoder: `DECODE` and its dispatch classes (42_decoder.md rules R150 to R172).
It writes no state (rule R169). -/

namespace Sys2Proof.Machine

/-! ### The branches: a decoded response from a well-formed frame -/

/-- The fields of `base` (rule R150) that every branch shares: slave id (R152), `crcValid` (R153), raw
frame (R156), direction (R155). -/
structure RespBase where
  slaveId   : U8
  crcValid  : Bool
  rawFrame  : ByteSeq
  direction : Direction
  deriving DecidableEq, Repr

/-- `base` of a well-formed frame (rule R150). -/
def respBase (s : ByteSeq) (direction : Direction) : RespBase :=
  { slaveId := byteAt s 0, crcValid := crcOk s, rawFrame := s, direction := direction }

/-- `base with { ... }` (rules R157 to R168). -/
def RespBase.fill (b : RespBase) (functionCode : U8) (isException : Bool)
    (startAddress : Option U16) (values : DecodedValues) : DecodedResponse :=
  { slaveId := b.slaveId, functionCode := functionCode, kind := kindOf functionCode,
    isException := isException, crcValid := b.crcValid, startAddress := startAddress,
    values := values, rawFrame := b.rawFrame, direction := b.direction }

/-- `exc_desc(e)` (rule R158). -/
def excDesc (e : U8) : ExcDesc :=
  if e = 0x01#8 then .illegalFunction
  else if e = 0x02#8 then .illegalDataAddress
  else if e = 0x03#8 then .illegalDataValue
  else if e = 0x04#8 then .slaveDeviceFailure
  else if e = 0x05#8 then .acknowledge
  else if e = 0x06#8 then .slaveDeviceBusy
  else if e = 0x08#8 then .memoryParityError
  else if e = 0x0A#8 then .gatewayPathUnavailable
  else if e = 0x0B#8 then .gatewayTargetFailed
  else .unknownException

/-- `DEC_EXCEPTION` (rule R157). -/
def respException (s : ByteSeq) (b : RespBase) : DecodedResponse :=
  b.fill (byteAt s 1 &&& 0x7F#8) true none (.exception (byteAt s 2) (excDesc (byteAt s 2)))

/-- The number of meaningful bits (rule R159): the tracker's quantity, capped by the bits present, or
all of them for `unknown`. -/
def bitCount (e : Entry) (avail : Nat) : Nat :=
  match e with
  | .known q => min q.toNat (8 * avail)
  | .unknown => 8 * avail

/-- `DEC_BITS` (rules R159, R160). -/
def respBits (t : Tracker) (s : ByteSeq) (b : RespBase) (reqStart : Option U16) (k : FnKey) :
    DecodedResponse :=
  b.fill k.code false reqStart
    (.bits (unpackBits (dataRegion s) (bitCount (t.get k) (dataRegion s).length)))

/-- `DEC_REGS` (rules R161, R162). -/
def respRegs (s : ByteSeq) (b : RespBase) (reqStart : Option U16) (k : FnKey) : DecodedResponse :=
  b.fill k.code false reqStart (.regs (readRegs (dataRegion s)))

/-- `DEC_WSC` (rule R163). -/
def respWsc (s : ByteSeq) (b : RespBase) : DecodedResponse :=
  b.fill 0x05#8 false (echoField s 2)
    (.coilEcho ((echoField s 4).map fun w => w == 0xFF00#16) (echoField s 4))

/-- `DEC_WSR` (rule R164). -/
def respWsr (s : ByteSeq) (b : RespBase) : DecodedResponse :=
  b.fill 0x06#8 false (echoField s 2) (.regEcho (echoField s 4))

/-- `DEC_ECHOQ` (rules R165, R166). -/
def respEchoQ (s : ByteSeq) (b : RespBase) (k : FnKey) : DecodedResponse :=
  b.fill k.code false (echoField s 2) (.qtyEcho (echoField s 4))

/-- `DEC_UNKNOWN` (rule R168). -/
def respUnknown (s : ByteSeq) (b : RespBase) : DecodedResponse :=
  b.fill (byteAt s 1) false none .empty

/-- `DECODE` of a well-formed frame (rule R150): the exception test first, then the function code. -/
def respOf (t : Tracker) (s : ByteSeq) (direction : Direction) (reqStart : Option U16) :
    DecodedResponse :=
  if exceptionBit (byteAt s 1) then respException s (respBase s direction)
  else
    match fnKey? (byteAt s 1) with
    | some .rc => respBits t s (respBase s direction) reqStart .rc
    | some .rdi => respBits t s (respBase s direction) reqStart .rdi
    | some .rhr => respRegs s (respBase s direction) reqStart .rhr
    | some .rir => respRegs s (respBase s direction) reqStart .rir
    | some .wsc => respWsc s (respBase s direction)
    | some .wsr => respWsr s (respBase s direction)
    | some .wmc => respEchoQ s (respBase s direction) .wmc
    | some .wmr => respEchoQ s (respBase s direction) .wmr
    | none => respUnknown s (respBase s direction)

/-! ### The step around a branch -/

/-- A `DECODE` of `input` whose frame is decoded by `branch`: refused beyond `RX_MAX_LEN` (00_scope.md
rule R9), `MalformedFrame` by rule R151, else the decoded response. -/
def State.decodeBy (s : State) (input : List Symbol) (branch : ByteSeq → DecodedResponse) :
    Host.Outcome State Fault Refusal :=
  if rxFits s.cfg input.length then
    match checkWellformed input with
    | .error cause => .next (s.raise (.malformedFrame cause))
    | .ok b => .next (s.answer (.decoded (branch b)))
  else .refused .rxTooLong

/-- A dispatch class's step: its frame, with byte 1 `fb`, decoded by the class's branch. -/
def State.decodeClass (s : State) (fb : U8) (f : RespFrame)
    (branch : ByteSeq → RespBase → DecodedResponse) : Host.Outcome State Fault Refusal :=
  s.decodeBy ((f.bytes fb).map .byte) fun b => branch b (respBase b f.direction)

/-- `DECODE` (rule R150). -/
def execDecode (input : List Symbol) (direction : Direction) (reqStart : Option U16) (s : State) :
    Host.Outcome State Fault Refusal :=
  s.decodeBy input fun b => respOf s.T b direction reqStart

/-- `DEC.EXCEPTION` (rule R157); byte 1 is `0x80 | fc` (30_encoding.md rule R73). -/
def execDecException (fc : BitVec 7) (f : RespFrame) (s : State) : Host.Outcome State Fault Refusal :=
  s.decodeClass (0x80#8 ||| fc.setWidth 8) f respException

/-- `DEC.RC` (rule R159). -/
def execDecRc (f : RespFrame) (reqStart : Option U16) (s : State) : Host.Outcome State Fault Refusal :=
  s.decodeClass 0x01#8 f fun b base => respBits s.T b base reqStart .rc

/-- `DEC.RDI` (rule R160). -/
def execDecRdi (f : RespFrame) (reqStart : Option U16) (s : State) : Host.Outcome State Fault Refusal :=
  s.decodeClass 0x02#8 f fun b base => respBits s.T b base reqStart .rdi

/-- `DEC.RHR` (rule R161). -/
def execDecRhr (f : RespFrame) (reqStart : Option U16) (s : State) : Host.Outcome State Fault Refusal :=
  s.decodeClass 0x03#8 f fun b base => respRegs b base reqStart .rhr

/-- `DEC.RIR` (rule R162). -/
def execDecRir (f : RespFrame) (reqStart : Option U16) (s : State) : Host.Outcome State Fault Refusal :=
  s.decodeClass 0x04#8 f fun b base => respRegs b base reqStart .rir

/-- `DEC.WSC` (rule R163). -/
def execDecWsc (f : RespFrame) (s : State) : Host.Outcome State Fault Refusal :=
  s.decodeClass 0x05#8 f respWsc

/-- `DEC.WSR` (rule R164). -/
def execDecWsr (f : RespFrame) (s : State) : Host.Outcome State Fault Refusal :=
  s.decodeClass 0x06#8 f respWsr

/-- `DEC.WMC` (rule R165). -/
def execDecWmc (f : RespFrame) (s : State) : Host.Outcome State Fault Refusal :=
  s.decodeClass 0x0F#8 f fun b base => respEchoQ b base .wmc

/-- `DEC.WMR` (rule R166). -/
def execDecWmr (f : RespFrame) (s : State) : Host.Outcome State Fault Refusal :=
  s.decodeClass 0x10#8 f fun b base => respEchoQ b base .wmr

/-- `DEC.UNKNOWN` (rule R168). -/
def execDecUnknown (fc : BitVec 7) (f : RespFrame) (s : State) : Host.Outcome State Fault Refusal :=
  s.decodeClass (fc.setWidth 8) f respUnknown

/-! ### Display strings, outside the hardware result -/

/-- The function label a host derives from the kind (rule R171). -/
def kindLabel : FunctionKind → String
  | .rc => "Read Coils"
  | .rdi => "Read Discrete Inputs"
  | .rhr => "Read Holding Registers"
  | .rir => "Read Input Registers"
  | .wsc => "Write Single Coil"
  | .wsr => "Write Single Register"
  | .wmc => "Write Multiple Coils"
  | .wmr => "Write Multiple Registers"
  | .unknown => "Unknown Function"

/-- The description string of an exception description (rule R158). -/
def excLabel : ExcDesc → String
  | .illegalFunction => "Illegal Function"
  | .illegalDataAddress => "Illegal Data Address"
  | .illegalDataValue => "Illegal Data Value"
  | .slaveDeviceFailure => "Slave Device Failure"
  | .acknowledge => "Acknowledge"
  | .slaveDeviceBusy => "Slave Device Busy"
  | .memoryParityError => "Memory Parity Error"
  | .gatewayPathUnavailable => "Gateway Path Unavailable"
  | .gatewayTargetFailed => "Gateway Target Device Failed to Respond"
  | .unknownException => "Unknown Exception"

end Sys2Proof.Machine
end

