-- ==== Sys2Proof/Machine/Encoder.lean ====
section
/-! DEFINITION. The frame encoder, `ENCODE` (41_encoder.md rules R120 to R136). -/

namespace Sys2Proof.Machine

/-- `values_ok(fc, quantity, values)` (rule R124). -/
def valuesOk (k : FnKey) (quantity : U16) (values : Values) : Bool :=
  match k, values with
  | .rc, _ => true
  | .rdi, _ => true
  | .rhr, _ => true
  | .rir, _ => true
  | .wsc, .coils l => l.length == 1
  | .wsc, _ => false
  | .wsr, .regs l => l.length == 1
  | .wsr, _ => false
  | .wmc, .coils l => l.length == quantity.toNat
  | .wmc, _ => false
  | .wmr, .regs l => l.length == quantity.toNat
  | .wmr, _ => false

/-- The checks of `ENCODE` after the function code's, in their order (rules R120 to R124, R202): the
cause of the first that fails. -/
def checkRequest (c : Config) (k : FnKey) (d : Descriptor) : Option InvalidCause :=
  if d.slaveId < 1#8 ∨ d.slaveId > 247#8 then some .slave
  else if d.quantity = 0#16 ∨ qmax c k < d.quantity.toNat then some .quantity
  else if valuesOk k d.quantity d.values = false then some .values
  else none

/-- The payload of the four read requests (rules R127 to R130). -/
def payloadRead (a q : U16) : ByteSeq := beBytes a ++ beBytes q

/-- The word that encodes a coil value (30_encoding.md rules R64, R75). -/
def coilWord (v : Bool) : U16 := if v then 0xFF00#16 else 0x0000#16

/-- `payload_0x05` (rule R131). -/
def payloadWsc (a : U16) (l : List Bool) : ByteSeq := beBytes a ++ beBytes (coilWord (l.headD false))

/-- `payload_0x06` (rule R132). -/
def payloadWsr (a : U16) (l : List U16) : ByteSeq := beBytes a ++ beBytes (l.headD 0#16)

/-- `payload_0x0F` (rule R133), with the byte count `ceil(Q/8)` in one octet. -/
def payloadWmc (a q : U16) (l : List Bool) : ByteSeq :=
  beBytes a ++ beBytes q ++ BitVec.ofNat 8 ((q.toNat + 7) / 8) :: packBits l

/-- `payload_0x10` (rule R134), with the byte count `2 Q` in one octet. -/
def payloadWmr (a q : U16) (l : List U16) : ByteSeq :=
  beBytes a ++ beBytes q ++ BitVec.ofNat 8 (2 * q.toNat) :: regBytes l

/-- `payload_fc(startAddress, quantity, values)` (rule R120). -/
def payload (k : FnKey) (d : Descriptor) : ByteSeq :=
  match k with
  | .rc => payloadRead d.startAddress d.quantity
  | .rdi => payloadRead d.startAddress d.quantity
  | .rhr => payloadRead d.startAddress d.quantity
  | .rir => payloadRead d.startAddress d.quantity
  | .wsc => payloadWsc d.startAddress (coilList d.values)
  | .wsr => payloadWsr d.startAddress (regList d.values)
  | .wmc => payloadWmc d.startAddress d.quantity (coilList d.values)
  | .wmr => payloadWmr d.startAddress d.quantity (regList d.values)

/-- The sealed request frame (rule R120; 30_encoding.md rule R60). -/
def requestFrame (k : FnKey) (d : Descriptor) : ByteSeq :=
  crcAppend (d.slaveId :: k.code :: payload k d)

/-- `ENCODE` of a supported function (rule R120): all or nothing (rule R125); on success the tracker
write comes first (rules R126, R51), then the hand-off (rule R135). -/
def State.encodeKey (s : State) (k : FnKey) (d : Descriptor) : State :=
  match checkRequest s.cfg k d with
  | some cause => s.raise (.invalidRequest cause)
  | none =>
    ((s.record k d.quantity).emit (requestFrame k d)).answer (.frame (requestFrame k d))

/-- `ENCODE` of any function-code byte (rule R120): the function-code check is the first (rule R122). -/
def State.encodeAny (s : State) (fc : U8) (d : Descriptor) : State :=
  match fnKey? fc with
  | none => s.raise (.invalidRequest .function)
  | some k => s.encodeKey k d

/-- `ENCODE` ReadCoils (rule R127). -/
def execEncodeRc (d : Descriptor) (s : State) : Host.Outcome State Fault Refusal :=
  .next (s.encodeKey .rc d)

/-- `ENCODE` ReadDiscreteInputs (rule R128). -/
def execEncodeRdi (d : Descriptor) (s : State) : Host.Outcome State Fault Refusal :=
  .next (s.encodeKey .rdi d)

/-- `ENCODE` ReadHoldingRegisters (rule R129). -/
def execEncodeRhr (d : Descriptor) (s : State) : Host.Outcome State Fault Refusal :=
  .next (s.encodeKey .rhr d)

/-- `ENCODE` ReadInputRegisters (rule R130). -/
def execEncodeRir (d : Descriptor) (s : State) : Host.Outcome State Fault Refusal :=
  .next (s.encodeKey .rir d)

/-- `ENCODE` WriteSingleCoil (rule R131). -/
def execEncodeWsc (d : Descriptor) (s : State) : Host.Outcome State Fault Refusal :=
  .next (s.encodeKey .wsc d)

/-- `ENCODE` WriteSingleRegister (rule R132). -/
def execEncodeWsr (d : Descriptor) (s : State) : Host.Outcome State Fault Refusal :=
  .next (s.encodeKey .wsr d)

/-- `ENCODE` WriteMultipleCoils (rule R133). -/
def execEncodeWmc (d : Descriptor) (s : State) : Host.Outcome State Fault Refusal :=
  .next (s.encodeKey .wmc d)

/-- `ENCODE` WriteMultipleRegisters (rule R134). -/
def execEncodeWmr (d : Descriptor) (s : State) : Host.Outcome State Fault Refusal :=
  .next (s.encodeKey .wmr d)

/-- `ENCODE` of another function-code byte (rule R122): `InvalidRequest(IR_FUNCTION)`. On the ill-formed
term whose byte is a supported code it is the generic `ENCODE` of that byte (log entry 10). -/
def execEncodeOther (fc : U8) (d : Descriptor) (s : State) : Host.Outcome State Fault Refusal :=
  .next (s.encodeAny fc d)

end Sys2Proof.Machine
end

