-- ==== Sys2Proof/Machine/Generator.lean ====
section
/-! DEFINITION. The CRC generator operations (40_crc.md rules R102 to R105). -/

namespace Sys2Proof.Machine

/-- `CRC_COMPUTE` (rule R102): a local accumulator; `ACC` is not touched. -/
def execCrcCompute (bytes : ByteSeq) (s : State) : Host.Outcome State Fault Refusal :=
  .next (s.answer (.crc (crc16 bytes)))

/-- `CRC_INIT` (rule R103). -/
def execCrcInit (s : State) : Host.Outcome State Fault Refusal :=
  .next ((s.setAcc 0xFFFF#16).answer .noValue)

/-- `CRC_UPDATE` (rule R104). -/
def execCrcUpdate (b : U8) (s : State) : Host.Outcome State Fault Refusal :=
  .next ((s.setAcc (crcByte s.ACC b)).answer .noValue)

/-- `CRC_READ` (rule R105). -/
def execCrcRead (s : State) : Host.Outcome State Fault Refusal :=
  .next (s.answer (.crc s.ACC))

end Sys2Proof.Machine
end

