-- ==== Sys2Proof/Machine/Dispatch.lean ====
section
/-! DEFINITION. One arm per instruction, each one call of its meaning. -/

namespace Sys2Proof.Machine

def exec (i : Instr) (s : State) : Host.Outcome State Fault Refusal :=
  match i with
  | .crcCompute bytes => Sys2Proof.Machine.execCrcCompute bytes s
  | .crcInit => Sys2Proof.Machine.execCrcInit s
  | .crcUpdate b => Sys2Proof.Machine.execCrcUpdate b s
  | .crcRead => Sys2Proof.Machine.execCrcRead s
  | .encodeRc d => Sys2Proof.Machine.execEncodeRc d s
  | .encodeRdi d => Sys2Proof.Machine.execEncodeRdi d s
  | .encodeRhr d => Sys2Proof.Machine.execEncodeRhr d s
  | .encodeRir d => Sys2Proof.Machine.execEncodeRir d s
  | .encodeWsc d => Sys2Proof.Machine.execEncodeWsc d s
  | .encodeWsr d => Sys2Proof.Machine.execEncodeWsr d s
  | .encodeWmc d => Sys2Proof.Machine.execEncodeWmc d s
  | .encodeWmr d => Sys2Proof.Machine.execEncodeWmr d s
  | .encodeOther fc d => Sys2Proof.Machine.execEncodeOther fc d s
  | .decode input direction reqStart => Sys2Proof.Machine.execDecode input direction reqStart s
  | .lookup fc => Sys2Proof.Machine.execLookup fc s
  | .reset => Sys2Proof.Machine.execReset s
  | .decException fc f => Sys2Proof.Machine.execDecException fc f s
  | .decRc f reqStart => Sys2Proof.Machine.execDecRc f reqStart s
  | .decRdi f reqStart => Sys2Proof.Machine.execDecRdi f reqStart s
  | .decRhr f reqStart => Sys2Proof.Machine.execDecRhr f reqStart s
  | .decRir f reqStart => Sys2Proof.Machine.execDecRir f reqStart s
  | .decWsc f => Sys2Proof.Machine.execDecWsc f s
  | .decWsr f => Sys2Proof.Machine.execDecWsr f s
  | .decWmc f => Sys2Proof.Machine.execDecWmc f s
  | .decWmr f => Sys2Proof.Machine.execDecWmr f s
  | .decUnknown fc f => Sys2Proof.Machine.execDecUnknown fc f s

end Sys2Proof.Machine
end

