-- ==== Sys2Proof/Machine/Step.lean ====
section
/-! DEFINITION. One step: the next operation of the total order of 20_memory.md rule R50, run atomically
(rule R46). -/

namespace Sys2Proof.Machine

/-- With nothing issued the block waits and nothing changes (10_state.md rule R28; log entry 1). A
refused command word has no step (60_exceptions.md rule R209). Otherwise the request leaves the queue
and its instruction runs. -/
def step (s : State) : Host.Outcome State Fault Refusal :=
  match s.fetch with
  | none => .next s
  | some (.error r) => .refused r
  | some (.ok i) => exec i s.advance

/-- `s` with the instruction whose bits are `w` issued, ahead of anything pending (log entries 1, 8). -/
def State.withFetchWord (s : State) (nbits w : Nat) : State := s.place (tableRequest nbits w)

end Sys2Proof.Machine
end

