-- ==== Sys2Proof/Safety.lean ====
section
/-! DEFINITION. The terms the claims use: accepted requests, the invariant of the machine, runs and
interleavings, and a second CRC design to compare with. -/

namespace Sys2Proof.Machine

/-! ### Requests -/

/-- The values that fit a function and a quantity (41_encoder.md rule R124's table). -/
def ValuesFit (k : FnKey) (q : U16) (v : Values) : Prop :=
  match k with
  | .rc => True
  | .rdi => True
  | .rhr => True
  | .rir => True
  | .wsc => ∃ b, v = .coils [b]
  | .wsr => ∃ w, v = .regs [w]
  | .wmc => ∃ l, v = .coils l ∧ l.length = q.toNat
  | .wmr => ∃ l, v = .regs l ∧ l.length = q.toNat

/-- The slave id is in 1..247 (41_encoder.md rule R121; 00_scope.md rule R7). -/
abbrev SlaveFits (d : Descriptor) : Prop := 1 ≤ d.slaveId.toNat ∧ d.slaveId.toNat ≤ 247

/-- The quantity is in 1..QMAX (41_encoder.md rule R123). -/
abbrev QuantityFits (c : Config) (k : FnKey) (d : Descriptor) : Prop :=
  1 ≤ d.quantity.toNat ∧ d.quantity.toNat ≤ qmax c k

/-- A request that `ENCODE` accepts (41_encoder.md rule R120). -/
def Accepted (c : Config) (k : FnKey) (d : Descriptor) : Prop :=
  SlaveFits d ∧ QuantityFits c k d ∧ ValuesFit k d.quantity d.values

/-- `s` after a successful `ENCODE` whose frame is `body` and its CRC, low octet first (41_encoder.md
rules R120, R126, R135; 20_memory.md rule R42). -/
def State.sent (s : State) (k : FnKey) (q : U16) (body : ByteSeq) : State :=
  { s with
    T := s.T.set k (.known q)
    emitted := s.emitted ++ [body ++ [lo8 (crc16 body), hi8 (crc16 body)]]
    result := .frame (body ++ [lo8 (crc16 body), hi8 (crc16 body)]) }

/-- `s` after an operation that returned `r` and changed nothing else. -/
def State.returned (s : State) (r : Result) : State := { s with result := r }

/-- The three failures of one `ENCODE` function, in their order (41_encoder.md rules R121, R123, R124):
each reports its cause and changes nothing else (rule R125). -/
def EncodeFails (i : Instr) (k : FnKey) (d : Descriptor) (s : State) : Prop :=
  (¬ SlaveFits d → exec i s = .next (s.returned (.invalidRequest .slave))) ∧
  (SlaveFits d → ¬ QuantityFits s.cfg k d →
    exec i s = .next (s.returned (.invalidRequest .quantity))) ∧
  (SlaveFits d → QuantityFits s.cfg k d → ¬ ValuesFit k d.quantity d.values →
    exec i s = .next (s.returned (.invalidRequest .values)))

/-- The whole of one `ENCODE` function: its word, its success with the frame of `body`, and its failures
(41_encoder.md rules R120 to R126). -/
def EncodesAs (i : Instr) (k : FnKey) (cmd : BitVec 12) (d : Descriptor) (s : State)
    (body : ByteSeq) : Prop :=
  (encode i).cmd = cmd ∧
  (Accepted s.cfg k d → exec i s = .next (s.sent k d.quantity body)) ∧
  EncodeFails i k d s

/-- Slave id, function code and start address: the first four bytes of every request (30_encoding.md
rules R63 to R67). -/
def requestHead (fc : U8) (d : Descriptor) : ByteSeq :=
  [d.slaveId, fc, hi8 d.startAddress, lo8 d.startAddress]

/-- The length of the request frame of a function for a quantity (30_encoding.md rule R74). -/
def frameLength (k : FnKey) (q : Nat) : Nat :=
  match k with
  | .rc => 8
  | .rdi => 8
  | .rhr => 8
  | .rir => 8
  | .wsc => 8
  | .wsr => 8
  | .wmc => 9 + (q + 7) / 8
  | .wmr => 9 + 2 * q

/-! ### Responses -/

/-- A dispatch class can run: the frame has at least 5 bytes and the buffer holds it. -/
def FrameFits (c : Config) (f : RespFrame) : Prop :=
  3 ≤ f.tail.length ∧ ∀ m ∈ c.rxMaxLen, f.tail.length + 2 ≤ m

/-- `i` returns the decoded response with these fields and changes nothing else (42_decoder.md rules
R152 to R156, R169). -/
def DecodesTo (i : Instr) (s : State) (fb fc : U8) (f : RespFrame) (kind : FunctionKind)
    (isException : Bool) (startAddress : Option U16) (values : DecodedValues) : Prop :=
  exec i s = .next (s.returned (.decoded
    { slaveId := f.slaveId, functionCode := fc, kind := kind, isException := isException,
      crcValid := crcOk (f.bytes fb), startAddress := startAddress, values := values,
      rawFrame := f.bytes fb, direction := f.direction }))

/-- `DECODE` and `LOOKUP`, the operations that 60_exceptions.md rule R212 names for a receiver. Rules R211
and 20_memory.md R49 let it issue the others too; those are not counted here. -/
def receiverOp : Instr → Bool
  | .crcCompute _ => false
  | .crcInit => false
  | .crcUpdate _ => false
  | .crcRead => false
  | .encodeRc _ => false
  | .encodeRdi _ => false
  | .encodeRhr _ => false
  | .encodeRir _ => false
  | .encodeWsc _ => false
  | .encodeWsr _ => false
  | .encodeWmc _ => false
  | .encodeWmr _ => false
  | .encodeOther _ _ => false
  | .decode _ _ _ => true
  | .lookup _ => true
  | .reset => false
  | .decException _ _ => true
  | .decRc _ _ => true
  | .decRdi _ _ => true
  | .decRhr _ _ => true
  | .decRir _ _ => true
  | .decWsc _ => true
  | .decWsr _ => true
  | .decWmc _ => true
  | .decWmr _ => true
  | .decUnknown _ _ => true

/-- How many input elements an instruction of the `DECODE` family has; `none` for any other. -/
def inputLength : Instr → Option Nat
  | .crcCompute _ => none
  | .crcInit => none
  | .crcUpdate _ => none
  | .crcRead => none
  | .encodeRc _ => none
  | .encodeRdi _ => none
  | .encodeRhr _ => none
  | .encodeRir _ => none
  | .encodeWsc _ => none
  | .encodeWsr _ => none
  | .encodeWmc _ => none
  | .encodeWmr _ => none
  | .encodeOther _ _ => none
  | .decode input _ _ => some input.length
  | .lookup _ => none
  | .reset => none
  | .decException _ f => some (f.tail.length + 2)
  | .decRc f _ => some (f.tail.length + 2)
  | .decRdi f _ => some (f.tail.length + 2)
  | .decRhr f _ => some (f.tail.length + 2)
  | .decRir f _ => some (f.tail.length + 2)
  | .decWsc f => some (f.tail.length + 2)
  | .decWsr f => some (f.tail.length + 2)
  | .decWmc f => some (f.tail.length + 2)
  | .decWmr f => some (f.tail.length + 2)
  | .decUnknown _ f => some (f.tail.length + 2)

/-! ### The invariant -/

/-- A tracker entry's quantity is one that its function's `ENCODE` accepts (10_state.md rule R21). -/
def EntryOk (c : Config) (k : FnKey) : Entry → Prop
  | .unknown => True
  | .known q => 1 ≤ q.toNat ∧ q.toNat ≤ qmax c k

/-- A frame the encoder built (30_encoding.md rules R60, R74): at least 8 bytes, sealed by its CRC, from
a slave id in 1..247 and with a supported function code. -/
def FrameOk (f : ByteSeq) : Prop :=
  8 ≤ f.length ∧ f.length ≤ 264 ∧ crcOk f = true ∧
  1 ≤ (byteAt f 0).toNat ∧ (byteAt f 0).toNat ≤ 247 ∧ ∃ k, fnKey? (byteAt f 1) = some k

/-- A result is what an operation can return (42_decoder.md rules R152 to R157; 43_tracker.md rule
R191). -/
def ResultOk : Result → Prop
  | .frame f => FrameOk f
  | .decoded r =>
    5 ≤ r.rawFrame.length ∧ r.slaveId = byteAt r.rawFrame 0 ∧
    r.functionCode = byteAt r.rawFrame 1 &&& 0x7F#8 ∧ r.kind = kindOf r.functionCode ∧
    r.isException = (byteAt r.rawFrame 1).getLsbD 7 ∧ r.crcValid = crcOk r.rawFrame
  | .entry e => e ≠ .known 0#16
  | .noValue => True
  | .crc _ => True
  | .invalidRequest _ => True
  | .malformedFrame _ => True

/-- The invariant: the parameters are within their bounds, every tracker entry is one an accepted
request wrote, and every frame handed to the transport and every result is well formed. -/
def State.Inv (s : State) : Prop :=
  s.cfg.wf ∧ (∀ k, EntryOk s.cfg k (s.T.get k)) ∧ (∀ f ∈ s.emitted, FrameOk f) ∧ ResultOk s.result

/-! ### Runs -/

/-- `n` steps of the machine. -/
abbrev runSteps (n : Nat) (s : State) : Host.Outcome State Fault Refusal :=
  Host.Core.run Sys2Proof.core n s

/-- `merged` is an interleaving of two agents' sequences that keeps each agent's order (20_memory.md
rule R50). -/
inductive Interleaves {α : Type} : List α → List α → List α → Prop where
  | nil : Interleaves [] [] []
  | left {a : α} {x y z : List α} (h : Interleaves x y z) : Interleaves (a :: x) y (a :: z)
  | right {a : α} {x y z : List α} (h : Interleaves x y z) : Interleaves x (a :: y) (a :: z)

/-- The bytes that a sequence of requests gives to `CRC_UPDATE`. -/
def updateBytes (ops : List Request) : ByteSeq :=
  ops.filterMap fun r =>
    match decode r with
    | .ok (.crcUpdate b) => some b
    | .ok _ => none
    | .error _ => none

/-! ### A second CRC design -/

/-- The 256-entry lookup table of a table-driven generator (00_scope.md rule R10): entry `i` is eight
iterations of the bit loop on `i`. -/
def crcTable : List U16 := (List.range 256).map fun i => crcShifts 8 (BitVec.ofNat 16 i)

/-- The table-driven byte step: the accumulator's high octet, XORed with the entry that its low octet
and the data byte select. -/
def crcByteTable (a : U16) (b : U8) : U16 :=
  (a >>> 8) ^^^ crcTable.getD ((a.setWidth 8 ^^^ b).toNat) 0#16

/-- The table-driven CRC. -/
def crc16Table (s : ByteSeq) : U16 := s.foldl crcByteTable 0xFFFF#16

end Sys2Proof.Machine
end

