-- ==== Sys2Proof/Certificates/Slice0/Obligations.lean ====
section
/-! DEFINITION. The statements for the provers, from the numbered rules of spec/. The fields `result`,
`emitted` and `pending` are how this model writes "returns", "emits" and "issued" (log entries 1, 3, 4). -/

open Sys2Proof Sys2Proof.Machine

/-! ### Reset and the generator -/

/-- 10_state.md R27: at power-on, whatever the parameters, every tracker entry is `unknown` and
`ACC = 0xFFFF`, and `RESET` writes these values. -/
def Obligations.PowerOnHoldsResetValues : Prop :=
  ∀ c : Config,
    (∀ k, (State.powerOn c).T.get k = .unknown) ∧ (State.powerOn c).ACC = 0xFFFF#16 ∧
    ∀ s t, exec .reset s = .next t →
      t.T = (State.powerOn c).T ∧ t.ACC = (State.powerOn c).ACC

/-- 70_reset_and_hazards.md R230: `RESET` writes every tracker entry and `ACC`, and from the power-on state
it changes nothing. That it returns no value and leaves the parameters, the pending requests and the
emitted frames as they were is the model's inference (DEDUCED, log entry 13). -/
def Obligations.ResetClearsTrackerAndAcc : Prop :=
  (∀ o, decode ⟨0xF00#12, o⟩ = .ok .reset) ∧
  (∀ s, ∃ t, exec .reset s = .next t ∧ (∀ k, t.T.get k = .unknown) ∧ t.ACC = 0xFFFF#16 ∧
    t.result = .noValue ∧ t.cfg = s.cfg ∧ t.pending = s.pending ∧ t.emitted = s.emitted) ∧
  ∀ c, exec .reset (State.powerOn c) = .next (State.powerOn c)

/-- 40_crc.md R102: `CRC_COMPUTE` returns the CRC of its bytes, of any length, and writes no state. -/
def Obligations.CrcComputeReturnsCrc : Prop :=
  ∀ bytes s,
    (encode (.crcCompute bytes)).cmd = 0x100#12 ∧
    exec (.crcCompute bytes) s = .next (s.returned (.crc (crc16 bytes))) ∧
    exec (.crcCompute []) s = .next (s.returned (.crc 0xFFFF#16))

/-- 40_crc.md R103: `CRC_INIT` writes 0xFFFF to `ACC`, returns nothing (30_encoding.md R77, column
"result") and changes nothing else; twice is the same as once. -/
def Obligations.CrcInitSetsAcc : Prop :=
  (∀ o, decode ⟨0x200#12, o⟩ = .ok .crcInit) ∧
  ∀ s, ∃ t, exec .crcInit s = .next t ∧ t = { s with ACC := 0xFFFF#16, result := .noValue } ∧
    exec .crcInit t = .next t

/-- 40_crc.md R101, R104: `CRC_UPDATE b` replaces `ACC` by one byte step of it, for every byte, and
changes nothing else. Run after `CRC_INIT` on the bytes of a list, it leaves that list's CRC: R104's
invariant, which the spec marks as its own inference (derived from R100, R101 and R103). -/
def Obligations.CrcUpdateStepsAcc : Prop :=
  (∀ b s,
    (∀ o, decode ⟨0x300#12 ||| b.setWidth 12, o⟩ = .ok (.crcUpdate b)) ∧
    ∀ a, a = (List.range 8).foldl
        (fun a _ => if a.getLsbD 0 then (a >>> 1) ^^^ 0xA001#16 else a >>> 1)
        (s.ACC ^^^ b.setWidth 16) →
      exec (.crcUpdate b) s = .next { s with ACC := a, result := .noValue }) ∧
  ∀ (bytes : ByteSeq) (s : State), ∃ t,
    runSteps (bytes.length + 1)
        { s with pending := encode .crcInit :: bytes.map fun b => encode (.crcUpdate b) } = .next t ∧
      t.ACC = crc16 bytes

/-- 40_crc.md R105: `CRC_READ` returns `ACC` and writes no state. -/
def Obligations.CrcReadReturnsAcc : Prop :=
  (∀ o, decode ⟨0x400#12, o⟩ = .ok .crcRead) ∧
  (∀ s, exec .crcRead s = .next (s.returned (.crc s.ACC))) ∧
  ∀ c, exec .crcRead (State.powerOn c) = .next ((State.powerOn c).returned (.crc 0xFFFF#16))

/-- 40_crc.md R107: the check compares the CRC of all bytes but the last two with those two, low byte
first. -/
def Obligations.CrcOkComparesTrailer : Prop :=
  ∀ (body : ByteSeq) (lo hi : U8),
    crcOk (body ++ [lo, hi]) = true ↔ (crc16 body).toNat = 256 * hi.toNat + lo.toNat

/-- 40_crc.md R106, R107: a frame that `crc_append` sealed passes the check. -/
def Obligations.SealedFramePassesCheck : Prop :=
  ∀ body : ByteSeq,
    crcAppend body = body ++ [(crc16 body).setWidth 8, (crc16 body >>> 8).setWidth 8] ∧
    crcOk (crcAppend body) = true

/-- 40_crc.md R109: the empty CRC, the zero residue of every sealed frame, and the check value of the
ASCII digits 1 to 9. -/
def Obligations.ResidueIsZero : Prop :=
  crc16 [] = 0xFFFF#16 ∧ (∀ body, crc16 (crcAppend body) = 0x0000#16) ∧
  crc16 [0x31#8, 0x32#8, 0x33#8, 0x34#8, 0x35#8, 0x36#8, 0x37#8, 0x38#8, 0x39#8] = 0x4B37#16

/-- 40_crc.md R108: flipping any single bit of a frame whose CRC checks gives one whose CRC does not. -/
def Obligations.SingleBitFlipIsDetected : Prop :=
  ∀ (f : ByteSeq), 2 ≤ f.length → crcOk f = true →
    ∀ i j : Nat, i < f.length → j < 8 →
      crcOk (f.set i (byteAt f i ^^^ (1#8 <<< j))) = false

/-- 00_scope.md R10: a table-driven generator and the bitwise one give the same function. The spec gives no
table: `crcTable`, `crcByteTable` and `crc16Table` are the model's own design, to compare with. -/
def Obligations.TableCrcEqualsBitwiseCrc : Prop :=
  (∀ a b, crcByteTable a b = crcByte a b) ∧ ∀ s, crc16Table s = crc16 s

/-- 40_crc.md R104 (its invariant), 70_reset_and_hazards.md R238: after `CRC_INIT`, whatever operations
run that neither initialise nor reset `ACC`, `ACC` is the CRC of the bytes given to `CRC_UPDATE`. -/
def Obligations.StreamingCrcMatchesCrc16 : Prop :=
  ∀ (s t : State) (r : Request) (ops rest : List Request),
    s.pending = r :: (ops ++ rest) → decode r = .ok .crcInit →
    (∀ q ∈ ops, decode q ≠ .ok .crcInit ∧ decode q ≠ .ok .reset) →
    runSteps (ops.length + 1) s = .next t →
    t.ACC = crc16 (updateBytes ops)

/-! ### The encoder -/

/-- 41_encoder.md R127 to R130: the four read requests. The values are ignored, the start address is
not checked, and the frame is header, quantity, CRC. -/
def Obligations.EncodeReadRequests : Prop :=
  ∀ d s,
    EncodesAs (.encodeRc d) .rc 0x501#12 d s
      (requestHead 0x01#8 d ++ [hi8 d.quantity, lo8 d.quantity]) ∧
    EncodesAs (.encodeRdi d) .rdi 0x502#12 d s
      (requestHead 0x02#8 d ++ [hi8 d.quantity, lo8 d.quantity]) ∧
    EncodesAs (.encodeRhr d) .rhr 0x503#12 d s
      (requestHead 0x03#8 d ++ [hi8 d.quantity, lo8 d.quantity]) ∧
    EncodesAs (.encodeRir d) .rir 0x504#12 d s
      (requestHead 0x04#8 d ++ [hi8 d.quantity, lo8 d.quantity])

/-- 41_encoder.md R131: WriteSingleCoil, with `0xFF00` for true and `0x0000` for false. -/
def Obligations.EncodeWriteSingleCoil : Prop :=
  ∀ d s,
    (∀ v, d.values = .coils [v] → EncodesAs (.encodeWsc d) .wsc 0x505#12 d s
      (requestHead 0x05#8 d ++ (if v then [0xFF#8, 0x00#8] else [0x00#8, 0x00#8]))) ∧
    EncodeFails (.encodeWsc d) .wsc d s

/-- 41_encoder.md R132: WriteSingleRegister. -/
def Obligations.EncodeWriteSingleRegister : Prop :=
  ∀ d s,
    (∀ v, d.values = .regs [v] → EncodesAs (.encodeWsr d) .wsr 0x506#12 d s
      (requestHead 0x06#8 d ++ [hi8 v, lo8 v])) ∧
    EncodeFails (.encodeWsr d) .wsr d s

/-- 41_encoder.md R133: WriteMultipleCoils. The byte count is `ceil(Q/8)`, coil `k` is bit `k mod 8` of
packed byte `k div 8`, and every bit from `Q` on is 0. -/
def Obligations.EncodeWriteMultipleCoils : Prop :=
  ∀ d s, s.cfg.wf →
    (∀ l, d.values = .coils l → SlaveFits d → QuantityFits s.cfg .wmc d →
      l.length = d.quantity.toNat →
      ∃ (n : U8) (packed : ByteSeq),
        EncodesAs (.encodeWmc d) .wmc 0x50F#12 d s
          (requestHead 0x0F#8 d ++ [hi8 d.quantity, lo8 d.quantity, n] ++ packed) ∧
        n.toNat = (d.quantity.toNat + 7) / 8 ∧ packed.length = n.toNat ∧
        ∀ k, k < 8 * packed.length → (byteAt packed (k / 8)).getLsbD (k % 8) = l.getD k false) ∧
    EncodeFails (.encodeWmc d) .wmc d s

/-- 41_encoder.md R134: WriteMultipleRegisters. The byte count is `2 Q` and register `k` fills payload
bytes `2k` and `2k + 1`, high octet first. -/
def Obligations.EncodeWriteMultipleRegisters : Prop :=
  ∀ d s, s.cfg.wf →
    (∀ l, d.values = .regs l → SlaveFits d → QuantityFits s.cfg .wmr d →
      l.length = d.quantity.toNat →
      ∃ (n : U8) (out : ByteSeq),
        EncodesAs (.encodeWmr d) .wmr 0x510#12 d s
          (requestHead 0x10#8 d ++ [hi8 d.quantity, lo8 d.quantity, n] ++ out) ∧
        n.toNat = 2 * d.quantity.toNat ∧ out.length = n.toNat ∧
        ∀ k, k < l.length → byteAt out (2 * k) = hi8 (l.getD k 0#16) ∧
          byteAt out (2 * k + 1) = lo8 (l.getD k 0#16)) ∧
    EncodeFails (.encodeWmr d) .wmr d s

/-- 41_encoder.md R120, 60_exceptions.md R202: a step on the command word `0x500 | fc` always completes.
When several checks fail, the cause it reports is the first in the order function code, slave id,
quantity, values; when none fails, it returns a frame. -/
def Obligations.EncodeChecksInOrder : Prop :=
  ∀ (s : State) (r : Request) (rest : List Request) (fc : U8),
    s.pending = r :: rest → r.cmd = 0x500#12 ||| fc.setWidth 12 →
    ∃ t, step s = .next t ∧
      (fc ∉ supportedCodes → t.result = .invalidRequest .function) ∧
      ∀ k, fc = k.code →
        (¬ SlaveFits r.ops.descriptor → t.result = .invalidRequest .slave) ∧
        (SlaveFits r.ops.descriptor → ¬ QuantityFits s.cfg k r.ops.descriptor →
          t.result = .invalidRequest .quantity) ∧
        (SlaveFits r.ops.descriptor → QuantityFits s.cfg k r.ops.descriptor →
          ¬ ValuesFit k r.ops.quantity r.ops.values → t.result = .invalidRequest .values) ∧
        (Accepted s.cfg k r.ops.descriptor → ∃ f, t.result = .frame f)

/-- 41_encoder.md R122: `ENCODE` of a byte that is none of the eight codes reports `IR_FUNCTION`, whatever
the other operands, and changes nothing else; every byte with bit 7 set is such a byte. -/
def Obligations.EncodeRejectsOtherCodes : Prop :=
  ∀ fc d s, fc ∉ supportedCodes →
    exec (.encodeOther fc d) s = .next (s.returned (.invalidRequest .function)) ∧
    (∀ o, o.descriptor = d →
      decode ⟨0x500#12 ||| fc.setWidth 12, o⟩ = .ok (.encodeOther fc d)) ∧
    ∀ b : U8, b.getLsbD 7 = true → b ∉ supportedCodes

/-- 41_encoder.md R126: a successful `ENCODE` writes `known(quantity)` to its own function's entry and
changes no other entry; for the single writes that quantity is 1. -/
def Obligations.EncodeRecordsQuantity : Prop :=
  ∀ k d s, Accepted s.cfg k d →
    ∃ t, exec (encodeInstr k d) s = .next t ∧ t.T.get k = .known d.quantity ∧
      (k = .wsc ∨ k = .wsr → t.T.get k = .known 1#16) ∧ ∀ j, j ≠ k → t.T.get j = s.T.get j

/-- 30_encoding.md R74: the lengths of the encoder's frames; every one is at least 8 bytes. -/
def Obligations.EncodedFrameLengths : Prop :=
  ∀ k d s, Accepted s.cfg k d →
    ∃ t f, exec (encodeInstr k d) s = .next t ∧ t.result = .frame f ∧ 8 ≤ f.length ∧
      f.length = frameLength k d.quantity.toNat

/-- 41_encoder.md R136: right after a successful `ENCODE`, `LOOKUP` of its function code returns the
quantity that was its operand. -/
def Obligations.LookupAfterEncodeGivesQuantity : Prop :=
  ∀ k d s, Accepted s.cfg k d →
    ∃ t u, exec (encodeInstr k d) s = .next t ∧ exec (.lookup k.code) t = .next u ∧
      u.result = .entry (.known d.quantity)

/-! ### The tracker -/

/-- 43_tracker.md R191, 10_state.md R22: `LOOKUP` returns the entry of a supported code and `unknown` for
any other byte, and writes no state; right after `RESET` it returns `unknown` for every byte. -/
def Obligations.LookupReturnsEntry : Prop :=
  (∀ fc o, decode ⟨0x700#12 ||| fc.setWidth 12, o⟩ = .ok (.lookup fc)) ∧
  (∀ k s, exec (.lookup k.code) s = .next (s.returned (.entry (s.T.get k)))) ∧
  (∀ fc s, fc ∉ supportedCodes → exec (.lookup fc) s = .next (s.returned (.entry .unknown))) ∧
  ∀ fc s, ∃ t, exec .reset s = .next t ∧
    exec (.lookup fc) t = .next (t.returned (.entry .unknown))

/-! ### The decoder -/

/-- 42_decoder.md R151: fewer than five elements is `MF_SHORT`, `bad` elements counted; else a `bad`
element is `MF_BAD_OCTET`; nothing else changes. Any other input decodes. -/
def Obligations.DecodeReportsMalformed : Prop :=
  ∀ input dir rs s, (∀ m ∈ s.cfg.rxMaxLen, input.length ≤ m) →
    (input.length < 5 →
      exec (.decode input dir rs) s = .next (s.returned (.malformedFrame .short))) ∧
    (5 ≤ input.length → .bad ∈ input →
      exec (.decode input dir rs) s = .next (s.returned (.malformedFrame .badOctet))) ∧
    (5 ≤ input.length → .bad ∉ input →
      ∃ r, exec (.decode input dir rs) s = .next (s.returned (.decoded r)))

/-- 42_decoder.md R150: `DECODE` of a well-formed frame is the branch that byte 1 selects, the exception
test first. -/
def Obligations.DecodeRunsItsBranch : Prop :=
  ∀ (sid fb : U8) (tail : ByteSeq) (dir : Direction) (rs : Option U16) (s : State),
    3 ≤ tail.length →
    exec (.decode ((sid :: fb :: tail).map .byte) dir rs) s =
      (if fb.getLsbD 7 then exec (.decException (fb.setWidth 7) ⟨sid, tail, dir⟩) s
       else if fb = 0x01#8 then exec (.decRc ⟨sid, tail, dir⟩ rs) s
       else if fb = 0x02#8 then exec (.decRdi ⟨sid, tail, dir⟩ rs) s
       else if fb = 0x03#8 then exec (.decRhr ⟨sid, tail, dir⟩ rs) s
       else if fb = 0x04#8 then exec (.decRir ⟨sid, tail, dir⟩ rs) s
       else if fb = 0x05#8 then exec (.decWsc ⟨sid, tail, dir⟩) s
       else if fb = 0x06#8 then exec (.decWsr ⟨sid, tail, dir⟩) s
       else if fb = 0x0F#8 then exec (.decWmc ⟨sid, tail, dir⟩) s
       else if fb = 0x10#8 then exec (.decWmr ⟨sid, tail, dir⟩) s
       else exec (.decUnknown (fb.setWidth 7) ⟨sid, tail, dir⟩) s)

/-- 42_decoder.md R153, R155, R156 and the slave id of R152: whatever its branch, a `DECODE` of a
well-formed frame within the buffer completes with a response that carries the frame, its slave id, its
CRC check and the direction operand, which changes nothing in it but itself. -/
def Obligations.DecodeReportsHeader : Prop :=
  ∀ (b : ByteSeq) (rs : Option U16) (s : State),
    5 ≤ b.length → (∀ m ∈ s.cfg.rxMaxLen, b.length ≤ m) →
    ∃ r : DecodedResponse, r.slaveId = byteAt b 0 ∧ r.crcValid = crcOk b ∧ r.rawFrame = b ∧
      ∀ dir, exec (.decode (b.map .byte) dir rs) s =
        .next (s.returned (.decoded { r with direction := dir }))

/-- 42_decoder.md R167: the start address of a read response is the operand `reqStart`, unchanged; of an
exception or unknown response it is `none`, whatever `reqStart`. -/
def Obligations.DecodeStartAddress : Prop :=
  ∀ (b : ByteSeq) (dir : Direction) (rs : Option U16) (s : State),
    5 ≤ b.length → (∀ m ∈ s.cfg.rxMaxLen, b.length ≤ m) →
    ∃ r, exec (.decode (b.map .byte) dir rs) s = .next (s.returned (.decoded r)) ∧
      (byteAt b 1 ∈ [0x01#8, 0x02#8, 0x03#8, 0x04#8] → r.startAddress = rs) ∧
      (byteAt b 1 ∉ supportedCodes → r.startAddress = none)

/-- 42_decoder.md R157: an exception response, with the code from byte 2 and no further byte used. -/
def Obligations.DecodeExceptionResponse : Prop :=
  ∀ fc f s, FrameFits s.cfg f →
    DecodesTo (.decException fc f) s (0x80#8 ||| fc.setWidth 8) (fc.setWidth 8) f
      (kindOf (fc.setWidth 8)) true none
      (.exception (byteAt f.tail 0) (excDesc (byteAt f.tail 0)))

/-- 42_decoder.md R158: the exception-code table. Its numbers, but 0x02, are the spec's from general
knowledge (log entry 9). -/
def Obligations.ExceptionCodeTable : Prop :=
  excDesc 0x01#8 = .illegalFunction ∧ excDesc 0x02#8 = .illegalDataAddress ∧
  excDesc 0x03#8 = .illegalDataValue ∧ excDesc 0x04#8 = .slaveDeviceFailure ∧
  excDesc 0x05#8 = .acknowledge ∧ excDesc 0x06#8 = .slaveDeviceBusy ∧
  excDesc 0x07#8 = .unknownException ∧ excDesc 0x08#8 = .memoryParityError ∧
  excDesc 0x09#8 = .unknownException ∧ excDesc 0x0A#8 = .gatewayPathUnavailable ∧
  excDesc 0x0B#8 = .gatewayTargetFailed ∧ excDesc 0x00#8 = .unknownException ∧
  ∀ e : U8, 0x0C ≤ e.toNat → excDesc e = .unknownException

/-- 42_decoder.md R159, R160: a read-bits response. The bits are those of the data bytes, LSB first; their
number is the tracker's quantity for the response's own code, capped by the bits present, or all of them
when the entry is `unknown`. -/
def Obligations.DecodeReadBits : Prop :=
  ∀ f rs s, FrameFits s.cfg f →
    ∀ avail, avail = min (byteAt f.tail 0).toNat (f.tail.length - 3) →
    (∃ l, DecodesTo (.decRc f rs) s 0x01#8 0x01#8 f .rc false rs (.bits l) ∧
      l.length = (match s.T.rc with | .known q => min q.toNat (8 * avail) | .unknown => 8 * avail) ∧
      ∀ k, k < l.length → l.getD k false = (byteAt f.tail (1 + k / 8)).getLsbD (k % 8)) ∧
    (∃ l, DecodesTo (.decRdi f rs) s 0x02#8 0x02#8 f .rdi false rs (.bits l) ∧
      l.length = (match s.T.rdi with | .known q => min q.toNat (8 * avail) | .unknown => 8 * avail) ∧
      ∀ k, k < l.length → l.getD k false = (byteAt f.tail (1 + k / 8)).getLsbD (k % 8))

/-- 42_decoder.md R161, R162: a read-registers response. The registers are the complete big-endian pairs
of the data bytes; a lone last byte is ignored. -/
def Obligations.DecodeReadRegisters : Prop :=
  ∀ f rs s, FrameFits s.cfg f →
    ∃ l : List U16,
      DecodesTo (.decRhr f rs) s 0x03#8 0x03#8 f .rhr false rs (.regs l) ∧
      DecodesTo (.decRir f rs) s 0x04#8 0x04#8 f .rir false rs (.regs l) ∧
      l.length = min (byteAt f.tail 0).toNat (f.tail.length - 3) / 2 ∧
      ∀ k, k < l.length → (l.getD k 0#16).toNat =
        256 * (byteAt f.tail (1 + 2 * k)).toNat + (byteAt f.tail (2 + 2 * k)).toNat

/-- 42_decoder.md R163: a WriteSingleCoil echo. The address is present from 6 bytes on, the coil word from
8 bytes on; the Boolean is whether the word is 0xFF00. -/
def Obligations.DecodeWriteSingleCoil : Prop :=
  ∀ f s, FrameFits s.cfg f →
    ∀ start raw : Option U16,
      start = (if 6 ≤ f.tail.length + 2 then some (be16 (byteAt f.tail 0) (byteAt f.tail 1)) else none) →
      raw = (if 8 ≤ f.tail.length + 2 then some (be16 (byteAt f.tail 2) (byteAt f.tail 3)) else none) →
      DecodesTo (.decWsc f) s 0x05#8 0x05#8 f .wsc false start
        (.coilEcho (raw.map fun w => decide (w = 0xFF00#16)) raw)

/-- 42_decoder.md R164: a WriteSingleRegister echo. -/
def Obligations.DecodeWriteSingleRegister : Prop :=
  ∀ f s, FrameFits s.cfg f →
    ∀ start v : Option U16,
      start = (if 6 ≤ f.tail.length + 2 then some (be16 (byteAt f.tail 0) (byteAt f.tail 1)) else none) →
      v = (if 8 ≤ f.tail.length + 2 then some (be16 (byteAt f.tail 2) (byteAt f.tail 3)) else none) →
      DecodesTo (.decWsr f) s 0x06#8 0x06#8 f .wsr false start (.regEcho v)

/-- 42_decoder.md R165, R166: the multi-write echoes. -/
def Obligations.DecodeWriteMultiple : Prop :=
  ∀ f s, FrameFits s.cfg f →
    ∀ start q : Option U16,
      start = (if 6 ≤ f.tail.length + 2 then some (be16 (byteAt f.tail 0) (byteAt f.tail 1)) else none) →
      q = (if 8 ≤ f.tail.length + 2 then some (be16 (byteAt f.tail 2) (byteAt f.tail 3)) else none) →
      DecodesTo (.decWmc f) s 0x0F#8 0x0F#8 f .wmc false start (.qtyEcho q) ∧
      DecodesTo (.decWmr f) s 0x10#8 0x10#8 f .wmr false start (.qtyEcho q)

/-- 42_decoder.md R168: an unknown function code is no error; it decodes to empty values. -/
def Obligations.DecodeUnknownCode : Prop :=
  ∀ fc f s, FrameFits s.cfg f → fc.setWidth 8 ∉ supportedCodes →
    DecodesTo (.decUnknown fc f) s (fc.setWidth 8) (fc.setWidth 8) f .unknown false none .empty

/-- 00_scope.md R12: the byte-order helpers. -/
def Obligations.BigEndianHelpers : Prop :=
  (∀ h l : U8, (be16 h l).toNat = 256 * h.toNat + l.toNat) ∧
  ∀ v : U16, (hi8 v).toNat = v.toNat / 256 ∧ (lo8 v).toNat = v.toNat % 256 ∧
    be16 (hi8 v) (lo8 v) = v

/-- 42_decoder.md R170: two frames that differ in their CRC bytes only decode to the same fields but for
`crcValid` and the raw frame itself. -/
def Obligations.BadCrcKeepsValues : Prop :=
  ∀ (body : ByteSeq) (c₁ c₂ e₁ e₂ : U8) (dir : Direction) (rs : Option U16) (s : State),
    3 ≤ body.length → (∀ m ∈ s.cfg.rxMaxLen, body.length + 2 ≤ m) →
    ∃ r valid,
      exec (.decode ((body ++ [c₁, c₂]).map .byte) dir rs) s = .next (s.returned (.decoded r)) ∧
      exec (.decode ((body ++ [e₁, e₂]).map .byte) dir rs) s =
        .next (s.returned (.decoded { r with crcValid := valid, rawFrame := body ++ [e₁, e₂] }))

/-- 42_decoder.md R169: `DECODE` writes neither `T` nor `ACC`; its result depends on its operands and, for
codes 0x01 and 0x02, on that code's tracker entry only; a second `DECODE` of the same operands gives the
identical result. -/
def Obligations.DecodeDependsOnOwnEntryOnly : Prop :=
  ∀ (input : List Symbol) (dir : Direction) (rs : Option U16) (s t : State),
    exec (.decode input dir rs) s = .next t →
    t = s.returned t.result ∧ exec (.decode input dir rs) t = .next t ∧
    ∀ u : State, u.cfg = s.cfg →
      (input[1]? = some (.byte 0x01#8) → u.T.rc = s.T.rc) →
      (input[1]? = some (.byte 0x02#8) → u.T.rdi = s.T.rdi) →
      exec (.decode input dir rs) u = .next (u.returned t.result)

/-- 00_scope.md R9: an input longer than `RX_MAX_LEN` is refused, never truncated, by the whole `DECODE`
family. The refusal's name, and that the length is checked before the octets (so that a too long input with
a `bad` element is refused and not malformed), are the model's choices (DESIGN CHOICE, log entry 12). -/
def Obligations.LongInputIsRefused : Prop :=
  ∀ i n m s, inputLength i = some n → s.cfg.rxMaxLen = some m → m < n →
    exec i s = .refused .rxTooLong

/-! ### Whole-machine rules -/

/-- 60_exceptions.md R207, which the spec marks as its own inference from 41_encoder.md R125 (`ENCODE`) and
42_decoder.md R169 (`DECODE`): after an error outcome the state is the state before it but for the outcome
itself. -/
def Obligations.ErrorOutcomeChangesNoState : Prop :=
  ∀ i s t, exec i s = .next t →
    ((∃ c, t.result = .invalidRequest c) ∨ ∃ c, t.result = .malformedFrame c) →
    t = s.returned t.result

/-- 10_state.md R23, R24: an accepted `ENCODE` of every supported function writes its quantity to that
function's entry, and a tracker entry changes only so, or by `RESET`, which makes it `unknown`. -/
def Obligations.OnlyEncodeOrResetWritesTracker : Prop :=
  (∀ k d s, Accepted s.cfg k d →
    ∃ t, exec (encodeInstr k d) s = .next t ∧ t.T.get k = .known d.quantity) ∧
  ∀ i s t k, i.wellFormed = true → exec i s = .next t → t.T.get k ≠ s.T.get k →
    (i = .reset ∧ t.T.get k = .unknown) ∨
    ∃ d, i = encodeInstr k d ∧ Accepted s.cfg k d ∧ t.T.get k = .known d.quantity

/-- 10_state.md R26, and `RESET` by R27: only `CRC_INIT`, `CRC_UPDATE` and `RESET` change `ACC`, and only
`CRC_UPDATE` and `CRC_READ` depend on it: any other operation that does not write it does the same, and
leaves it alone, whatever it holds. -/
def Obligations.OnlyStreamingOpsWriteAcc : Prop :=
  (∀ i s t, exec i s = .next t → t.ACC ≠ s.ACC →
    i = .crcInit ∨ (∃ b, i = .crcUpdate b) ∨ i = .reset) ∧
  ∀ i s t a, exec i s = .next t →
    i ≠ .crcInit → (∀ b, i ≠ .crcUpdate b) → i ≠ .crcRead → i ≠ .reset →
    exec i { s with ACC := a } = .next { t with ACC := a }

/-- 41_encoder.md R135: a frame reaches the transport only from an accepted `ENCODE`, once, and is that
`ENCODE`'s result. -/
def Obligations.OnlyAcceptedEncodeEmits : Prop :=
  ∀ i s t, i.wellFormed = true → exec i s = .next t →
    t.emitted = s.emitted ∨
    ∃ k d f, i = encodeInstr k d ∧ Accepted s.cfg k d ∧ t.result = .frame f ∧
      t.emitted = s.emitted ++ [f] ∧ t.T.get k = .known d.quantity

/-- 10_state.md R30, 00_scope.md R8: no operation writes the parameters. That none issues or withdraws a
request of the host rests on 10_state.md R28 (the host alone orders operations) and on the model's choice
of the list `pending` (DESIGN CHOICE, log entry 1; for `RESET` DEDUCED, log entry 13). -/
def Obligations.NoOperationWritesParameters : Prop :=
  ∀ i s t, exec i s = .next t → t.cfg = s.cfg ∧ t.pending = s.pending

/-- 60_exceptions.md R200: no operation faults, and none but a `DECODE` beyond the buffer is refused:
every other operation completes from every state. -/
def Obligations.EveryOperationCompletes : Prop :=
  ∀ i s, (∀ n m, inputLength i = some n → s.cfg.rxMaxLen = some m → n ≤ m) →
    ∃ t, exec i s = .next t

/-! ### Steps, decoding and encoding -/

/-- 00_scope.md R6, 20_memory.md R46: a step runs the instruction of the first pending request, in one
piece, on the rest of the queue; with nothing pending it changes nothing (the model's choice, log entry
1). -/
def Obligations.StepRunsDecodedInstruction : Prop :=
  (∀ s r rest i, s.pending = r :: rest → decode r = .ok i →
    step s = exec i { s with pending := rest }) ∧
  ∀ s, s.pending = [] → step s = .next s

/-- 60_exceptions.md R209: a command word with a reserved operation code, or a nonzero argument where
0x00 is required, is refused for the rest of the run; by 30_encoding.md R77 and R80 every other word has an
instruction. That the two kinds of word are refused under two names is the model's choice: R209 names no
cause (DESIGN CHOICE, log entry 12). -/
def Obligations.MeaninglessWordsAreRefused : Prop :=
  ∀ (s : State) (r : Request) (rest : List Request) (n : Nat), s.pending = r :: rest →
    ((r.cmd.toNat / 256 = 0 ∨ (8 ≤ r.cmd.toNat / 256 ∧ r.cmd.toNat / 256 ≤ 14)) →
      runSteps (n + 1) s = .refused .reservedOp) ∧
    (r.cmd.toNat / 256 ∈ [1, 2, 4, 6, 15] → r.cmd.toNat % 256 ≠ 0 →
      runSteps (n + 1) s = .refused .nonzeroArg) ∧
    ((r.cmd.toNat / 256 ∈ [3, 5, 7] ∨ (r.cmd.toNat / 256 ∈ [1, 2, 4, 6, 15] ∧ r.cmd.toNat % 256 = 0)) →
      ∃ i, decode r = .ok i ∧ i.wellFormed = true ∧ step s = exec i { s with pending := rest })

/-- 30_encoding.md R77, R79 (the words of 95_test_vectors.md L2-CMD and P1 to P5): words decode to the
instructions they stand for, and two words without meaning are refused. The names under which those two are
refused are the model's choice: 60_exceptions.md R209 names no cause (DESIGN CHOICE, log entry 12). -/
def Obligations.SampleWordsDecode : Prop :=
  ∀ o : Operands,
    decodeCommand ⟨0x100#12, o⟩ = .ok (.crcCompute o.bytes) ∧
    decodeCommand ⟨0x3A5#12, o⟩ = .ok (.crcUpdate 0xA5#8) ∧
    decodeCommand ⟨0x503#12, o⟩ = .ok (.encodeRhr o.descriptor) ∧
    decodeCommand ⟨0x510#12, o⟩ = .ok (.encodeWmr o.descriptor) ∧
    decodeCommand ⟨0x583#12, o⟩ = .ok (.encodeOther 0x83#8 o.descriptor) ∧
    decodeCommand ⟨0x600#12, o⟩ = .ok (.decode o.input o.direction o.reqStart) ∧
    decodeCommand ⟨0x7FF#12, o⟩ = .ok (.lookup 0xFF#8) ∧
    decodeCommand ⟨0xF00#12, o⟩ = .ok .reset ∧
    decodeCommand ⟨0x201#12, o⟩ = .error .nonzeroArg ∧
    decodeCommand ⟨0x900#12, o⟩ = .error .reservedOp

/-- 30_encoding.md R79: each assembler line stands for exactly one request, with its command word and its
instruction; the short single-write forms fix the quantity at 1. -/
def Obligations.AssemblerLinesDecode : Prop :=
  ∀ (s : U8) (a q v : U16) (on : Bool) (cs : List Bool) (rg : List U16) (b : U8) (bs : ByteSeq)
    (vs : Values) (input : List Symbol) (dir : Direction) (start : Option U16),
    decode (assemble (.crcCompute bs)) = .ok (.crcCompute bs) ∧
    decode (assemble .crcInit) = .ok .crcInit ∧
    decode (assemble (.crcUpdate b)) = .ok (.crcUpdate b) ∧
    decode (assemble .crcRead) = .ok .crcRead ∧
    decode (assemble (.encodeRc s a q)) = .ok (.encodeRc ⟨s, a, q, .none⟩) ∧
    decode (assemble (.encodeRdi s a q)) = .ok (.encodeRdi ⟨s, a, q, .none⟩) ∧
    decode (assemble (.encodeRhr s a q)) = .ok (.encodeRhr ⟨s, a, q, .none⟩) ∧
    decode (assemble (.encodeRir s a q)) = .ok (.encodeRir ⟨s, a, q, .none⟩) ∧
    decode (assemble (.encodeWsc s a on)) = .ok (.encodeWsc ⟨s, a, 1#16, .coils [on]⟩) ∧
    decode (assemble (.encodeWsr s a v)) = .ok (.encodeWsr ⟨s, a, 1#16, .regs [v]⟩) ∧
    decode (assemble (.encodeWmc s a q cs)) = .ok (.encodeWmc ⟨s, a, q, .coils cs⟩) ∧
    decode (assemble (.encodeWmr s a q rg)) = .ok (.encodeWmr ⟨s, a, q, .regs rg⟩) ∧
    decode (assemble (.encode b s a q vs)) =
      .ok (match fnKey? b with
           | some k => encodeInstr k ⟨s, a, q, vs⟩
           | none => .encodeOther b ⟨s, a, q, vs⟩) ∧
    decodeCommand (assemble (.decode input dir start)) = .ok (.decode input dir start) ∧
    decode (assemble (.lookup b)) = .ok (.lookup b) ∧
    decode (assemble .reset) = .ok .reset

/-- 30_encoding.md R77, R80: the decoder reads back every operand of every well-formed instruction. A
`DECODE` of a well-formed frame is resolved to its dispatch class (log entry 5), so `DECODE` itself is
read back at the command word. -/
def Obligations.DecodeOfEncodeIsIdentity : Prop :=
  (∀ i : Instr, i.wellFormed = true → (∀ input dir rs, i ≠ .decode input dir rs) →
    decode (encode i) = .ok i) ∧
  ∀ input dir rs, decodeCommand (encode (.decode input dir rs)) = .ok (.decode input dir rs)

/-- 30_encoding.md R77, R80: an accepted request has one meaning: what it decodes to is well formed and
encodes to the same command word. -/
def Obligations.DecodedWordIsUnique : Prop :=
  ∀ r i, decode r = .ok i → i.wellFormed = true ∧ (encode i).cmd = r.cmd

/-! ### The invariant and whole runs -/

/-- 10_state.md R21, 30_encoding.md R60, R74, 42_decoder.md R153, R154: every step keeps the invariant. -/
def Obligations.StepKeepsInvariant : Prop :=
  ∀ s t : State, s.Inv → step s = .next t → t.Inv

/-- 70_reset_and_hazards.md R231, R232: the power-on state of an instance whose parameters are within
their bounds has the invariant, and so has the reset state (with the parameter values of log entry 2). -/
def Obligations.PowerOnHasInvariant : Prop :=
  (∀ c : Config, c.wf → (State.powerOn c).Inv) ∧ State.reset.Inv

/-- 20_memory.md R50, 10_state.md R24: after an accepted `ENCODE` and then any operations with no `RESET`
and no other accepted `ENCODE` of the same function, the tracker holds that request's quantity; with no
accepted `ENCODE` and no `RESET` at all it holds what it held before. -/
def Obligations.LastEncodeWins : Prop :=
  ∀ (k : FnKey) (s t : State) (mid rest : List Request),
    (∀ q ∈ mid, decode q ≠ .ok .reset ∧
      ∀ d, decode q = .ok (encodeInstr k d) → ¬ Accepted s.cfg k d) →
    (s.pending = mid ++ rest → runSteps mid.length s = .next t → t.T.get k = s.T.get k) ∧
    ∀ r d, s.pending = r :: (mid ++ rest) → decode r = .ok (encodeInstr k d) →
      Accepted s.cfg k d → runSteps (mid.length + 1) s = .next t →
      t.T.get k = .known d.quantity

/-- 20_memory.md R50, R47, 42_decoder.md R169 (a receiver may issue other operations too, R49 and
60_exceptions.md R211; this is about these two): however a receiver's `DECODE`s and `LOOKUP`s are interleaved
with a sender's operations, the tracker, the accumulator and the frames emitted end as if the sender had
run alone. -/
def Obligations.ReceiverCannotDisturbSender : Prop :=
  ∀ (s t : State) (sender receiver merged : List Request),
    Interleaves sender receiver merged →
    (∀ q ∈ receiver, ∃ i, decode q = .ok i ∧ receiverOp i = true) →
    runSteps merged.length { s with pending := merged } = .next t →
    ∃ u, runSteps sender.length { s with pending := sender } = .next u ∧
      t.T = u.T ∧ t.ACC = u.ACC ∧ t.emitted = u.emitted ∧ t.cfg = u.cfg

/-- 20_memory.md R43, 42_decoder.md R159, R160: a read-bits request for `l.length` bits, then a sealed
response that carries them packed, decodes to exactly `l`, with a valid CRC and the start address the
host gave. -/
def Obligations.ReadBitsRoundTrip : Prop :=
  ∀ (k : FnKey) (d : Descriptor) (l : List Bool) (n : U8) (dir : Direction) (rs : Option U16)
    (s t : State),
    (k = .rc ∨ k = .rdi) → Accepted s.cfg k d → (∀ m ∈ s.cfg.rxMaxLen, n.toNat + 5 ≤ m) →
    d.quantity.toNat = l.length → n.toNat = (l.length + 7) / 8 →
    exec (encodeInstr k d) s = .next t →
    ∃ u r,
      exec (.decode ((crcAppend (d.slaveId :: k.code :: n :: packBits l)).map .byte) dir rs) t =
        .next u ∧
      u.result = .decoded r ∧ r.crcValid = true ∧ r.isException = false ∧ r.slaveId = d.slaveId ∧
      r.startAddress = rs ∧ r.values = .bits l

/-- 30_encoding.md R69, 42_decoder.md R161, R162: a sealed response that carries `l` as big-endian registers
decodes to exactly `l`. -/
def Obligations.ReadRegistersRoundTrip : Prop :=
  ∀ (k : FnKey) (sid : U8) (l : List U16) (n : U8) (dir : Direction) (rs : Option U16) (s : State),
    (k = .rhr ∨ k = .rir) → (∀ m ∈ s.cfg.rxMaxLen, n.toNat + 5 ≤ m) → n.toNat = 2 * l.length →
    ∃ u r,
      exec (.decode ((crcAppend (sid :: k.code :: n :: regBytes l)).map .byte) dir rs) s = .next u ∧
      u.result = .decoded r ∧ r.crcValid = true ∧ r.isException = false ∧
      r.startAddress = rs ∧ r.values = .regs l

/-- 95_test_vectors.md L1-3, 30_encoding.md R70 to R72: decoding the echo of an accepted write recovers the
slave, the address and the value or quantity, with a valid CRC. A single write's echo is its own frame; a
multi-write's is its first six bytes, sealed. -/
def Obligations.WriteEchoRoundTrip : Prop :=
  ∀ (k : FnKey) (d : Descriptor) (dir : Direction) (rs : Option U16) (s t : State) (f : ByteSeq),
    Accepted s.cfg k d → (∀ m ∈ s.cfg.rxMaxLen, 8 ≤ m) →
    exec (encodeInstr k d) s = .next t → t.result = .frame f →
    (k = .wsc → ∀ v, d.values = .coils [v] → ∃ r,
      exec (.decode (f.map .byte) dir rs) t = .next (t.returned (.decoded r)) ∧
      r.crcValid = true ∧ r.slaveId = d.slaveId ∧ r.startAddress = some d.startAddress ∧
      r.values = .coilEcho (some v) (some (if v then 0xFF00#16 else 0x0000#16))) ∧
    (k = .wsr → ∀ v, d.values = .regs [v] → ∃ r,
      exec (.decode (f.map .byte) dir rs) t = .next (t.returned (.decoded r)) ∧
      r.crcValid = true ∧ r.slaveId = d.slaveId ∧ r.startAddress = some d.startAddress ∧
      r.values = .regEcho (some v)) ∧
    (k = .wmc ∨ k = .wmr → ∃ r,
      exec (.decode ((crcAppend (f.take 6)).map .byte) dir rs) t = .next (t.returned (.decoded r)) ∧
      r.crcValid = true ∧ r.slaveId = d.slaveId ∧ r.startAddress = some d.startAddress ∧
      r.values = .qtyEcho (some d.quantity))
end

