-- ==== Sys2Proof/Laws/Crc.lean ====
section
/-! SUPPORT. Laws of the byte helpers and of the CRC function. -/

namespace Sys2Proof.Machine

theorem crcFrom_append (a : U16) (s t : ByteSeq) :
    crcFrom a (s ++ t) = crcFrom (crcFrom a s) t := by
  induction s generalizing a with
  | nil => rfl
  | cons b s ih => exact ih (crcByte a b)

theorem crc16_append (s t : ByteSeq) : crc16 (s ++ t) = crcFrom (crc16 s) t :=
  crcFrom_append _ s t

@[simp] theorem crcAppend_length (body : ByteSeq) : (crcAppend body).length = body.length + 2 := by
  simp [crcAppend]

@[simp] theorem beBytes_length (v : U16) : (beBytes v).length = 2 := rfl

@[simp] theorem packBits_length (l : List Bool) : (packBits l).length = (l.length + 7) / 8 := by
  simp [packBits]

@[simp] theorem regBytes_length (l : List U16) : (regBytes l).length = 2 * l.length := by
  induction l with
  | nil => rfl
  | cons v l ih =>
    have h : regBytes (v :: l) = beBytes v ++ regBytes l := rfl
    simp [h, ih]
    omega

@[simp] theorem unpackBits_length (data : ByteSeq) (q : Nat) : (unpackBits data q).length = q := by
  simp [unpackBits]

@[simp] theorem readRegs_length (data : ByteSeq) : (readRegs data).length = data.length / 2 := by
  simp [readRegs]

/-- The data region never includes the CRC bytes: its length is `min(n, L - 5)` (42_decoder.md rule
R152). -/
theorem dataRegion_length (s : ByteSeq) :
    (dataRegion s).length = min (byteAt s 2).toNat (s.length - 5) := by
  simp [dataRegion, slice]
  omega

end Sys2Proof.Machine
end

