-- ==== Sys2Proof/Laws/State.lean ====
section
/-! SUPPORT. What each named update does to each field of the state: one lemma per field per update. -/

namespace Sys2Proof.Machine

@[simp] theorem State.answer_T (s : State) (r : Result) : (s.answer r).T = s.T := rfl
@[simp] theorem State.answer_ACC (s : State) (r : Result) : (s.answer r).ACC = s.ACC := rfl
@[simp] theorem State.answer_cfg (s : State) (r : Result) : (s.answer r).cfg = s.cfg := rfl
@[simp] theorem State.answer_pending (s : State) (r : Result) : (s.answer r).pending = s.pending := rfl
@[simp] theorem State.answer_result (s : State) (r : Result) : (s.answer r).result = r := rfl
@[simp] theorem State.answer_emitted (s : State) (r : Result) : (s.answer r).emitted = s.emitted := rfl

@[simp] theorem State.raise_T (s : State) (r : Result) : (s.raise r).T = s.T := rfl
@[simp] theorem State.raise_ACC (s : State) (r : Result) : (s.raise r).ACC = s.ACC := rfl
@[simp] theorem State.raise_cfg (s : State) (r : Result) : (s.raise r).cfg = s.cfg := rfl
@[simp] theorem State.raise_pending (s : State) (r : Result) : (s.raise r).pending = s.pending := rfl
@[simp] theorem State.raise_result (s : State) (r : Result) : (s.raise r).result = r := rfl
@[simp] theorem State.raise_emitted (s : State) (r : Result) : (s.raise r).emitted = s.emitted := rfl

@[simp] theorem State.setAcc_T (s : State) (v : U16) : (s.setAcc v).T = s.T := rfl
@[simp] theorem State.setAcc_ACC (s : State) (v : U16) : (s.setAcc v).ACC = v := rfl
@[simp] theorem State.setAcc_cfg (s : State) (v : U16) : (s.setAcc v).cfg = s.cfg := rfl
@[simp] theorem State.setAcc_pending (s : State) (v : U16) : (s.setAcc v).pending = s.pending := rfl
@[simp] theorem State.setAcc_result (s : State) (v : U16) : (s.setAcc v).result = s.result := rfl
@[simp] theorem State.setAcc_emitted (s : State) (v : U16) : (s.setAcc v).emitted = s.emitted := rfl

@[simp] theorem State.record_T (s : State) (k : FnKey) (q : U16) : (s.record k q).T = s.T.set k (.known q) := rfl
@[simp] theorem State.record_ACC (s : State) (k : FnKey) (q : U16) : (s.record k q).ACC = s.ACC := rfl
@[simp] theorem State.record_cfg (s : State) (k : FnKey) (q : U16) : (s.record k q).cfg = s.cfg := rfl
@[simp] theorem State.record_pending (s : State) (k : FnKey) (q : U16) : (s.record k q).pending = s.pending := rfl
@[simp] theorem State.record_result (s : State) (k : FnKey) (q : U16) : (s.record k q).result = s.result := rfl
@[simp] theorem State.record_emitted (s : State) (k : FnKey) (q : U16) : (s.record k q).emitted = s.emitted := rfl

@[simp] theorem State.emit_T (s : State) (f : ByteSeq) : (s.emit f).T = s.T := rfl
@[simp] theorem State.emit_ACC (s : State) (f : ByteSeq) : (s.emit f).ACC = s.ACC := rfl
@[simp] theorem State.emit_cfg (s : State) (f : ByteSeq) : (s.emit f).cfg = s.cfg := rfl
@[simp] theorem State.emit_pending (s : State) (f : ByteSeq) : (s.emit f).pending = s.pending := rfl
@[simp] theorem State.emit_result (s : State) (f : ByteSeq) : (s.emit f).result = s.result := rfl
@[simp] theorem State.emit_emitted (s : State) (f : ByteSeq) : (s.emit f).emitted = s.emitted ++ [f] := rfl

@[simp] theorem State.clear_T (s : State) : (s.clear).T = Tracker.empty := rfl
@[simp] theorem State.clear_ACC (s : State) : (s.clear).ACC = 0xFFFF#16 := rfl
@[simp] theorem State.clear_cfg (s : State) : (s.clear).cfg = s.cfg := rfl
@[simp] theorem State.clear_pending (s : State) : (s.clear).pending = s.pending := rfl
@[simp] theorem State.clear_result (s : State) : (s.clear).result = s.result := rfl
@[simp] theorem State.clear_emitted (s : State) : (s.clear).emitted = s.emitted := rfl

@[simp] theorem State.advance_T (s : State) : (s.advance).T = s.T := rfl
@[simp] theorem State.advance_ACC (s : State) : (s.advance).ACC = s.ACC := rfl
@[simp] theorem State.advance_cfg (s : State) : (s.advance).cfg = s.cfg := rfl
@[simp] theorem State.advance_pending (s : State) : (s.advance).pending = s.pending.tail := rfl
@[simp] theorem State.advance_result (s : State) : (s.advance).result = s.result := rfl
@[simp] theorem State.advance_emitted (s : State) : (s.advance).emitted = s.emitted := rfl

@[simp] theorem State.place_T (s : State) (r : Request) : (s.place r).T = s.T := rfl
@[simp] theorem State.place_ACC (s : State) (r : Request) : (s.place r).ACC = s.ACC := rfl
@[simp] theorem State.place_cfg (s : State) (r : Request) : (s.place r).cfg = s.cfg := rfl
@[simp] theorem State.place_pending (s : State) (r : Request) : (s.place r).pending = r :: s.pending := rfl
@[simp] theorem State.place_result (s : State) (r : Request) : (s.place r).result = s.result := rfl
@[simp] theorem State.place_emitted (s : State) (r : Request) : (s.place r).emitted = s.emitted := rfl

@[simp] theorem State.powerOn_T (c : Config) : (State.powerOn c).T = Tracker.empty := rfl
@[simp] theorem State.powerOn_ACC (c : Config) : (State.powerOn c).ACC = 0xFFFF#16 := rfl
@[simp] theorem State.powerOn_cfg (c : Config) : (State.powerOn c).cfg = c := rfl
@[simp] theorem State.powerOn_pending (c : Config) : (State.powerOn c).pending = [] := rfl
@[simp] theorem State.powerOn_result (c : Config) : (State.powerOn c).result = .noValue := rfl
@[simp] theorem State.powerOn_emitted (c : Config) : (State.powerOn c).emitted = [] := rfl

end Sys2Proof.Machine
end

