-- ==== Sys2Proof/Laws/Ops.lean ====
section
/-! SUPPORT. Laws of the shared operations: function codes, the tracker, fetching. -/

namespace Sys2Proof.Machine

@[simp] theorem fnKey_code (k : FnKey) : fnKey? k.code = some k := by cases k <;> decide

theorem fnKey_eq_some_iff (fc : U8) (k : FnKey) : fnKey? fc = some k ↔ fc = k.code := by
  revert fc; cases k <;> decide

theorem fnKey_eq_none_iff (fc : U8) : fnKey? fc = none ↔ supportedCodes.contains fc = false := by
  revert fc; decide

@[simp] theorem kindOf_code (k : FnKey) : kindOf k.code = keyKind k := by simp [kindOf]

@[simp] theorem Tracker.get_empty (k : FnKey) : Tracker.empty.get k = .unknown := by cases k <;> rfl

@[simp] theorem Tracker.get_set_self (t : Tracker) (k : FnKey) (e : Entry) :
    (t.set k e).get k = e := by cases k <;> rfl

theorem Tracker.get_set_of_ne (t : Tracker) {k j : FnKey} (e : Entry) (h : j ≠ k) :
    (t.set k e).get j = t.get j := by
  cases k <;> cases j <;> first | rfl | exact absurd rfl h

@[simp] theorem Tracker.lookup_code (t : Tracker) (k : FnKey) : t.lookup k.code = t.get k := by
  simp [Tracker.lookup]

theorem Tracker.lookup_of_not_key (t : Tracker) {fc : U8} (h : fnKey? fc = none) :
    t.lookup fc = .unknown := by simp [Tracker.lookup, h]

theorem State.fetch_nil {s : State} (h : s.pending = []) : s.fetch = none := by
  simp [State.fetch, h]

theorem State.fetch_ok {s : State} {r : Request} {rest : List Request} {i : Instr}
    (h : s.pending = r :: rest) (hd : decode r = .ok i) : s.fetch = some (.ok i) := by
  simp [State.fetch, h, hd]

theorem State.fetch_error {s : State} {r : Request} {rest : List Request} {e : DecodeError}
    (h : s.pending = r :: rest) (hd : decode r = .error e) :
    s.fetch = some (.error (refusalOf e)) := by
  simp [State.fetch, h, hd]

end Sys2Proof.Machine
end

