-- ==== Sys2Proof/Laws/Decoder.lean ====
section
/-! SUPPORT. What the `DECODE` family can do: refuse an input beyond the limit, report `MalformedFrame`,
or return a decoded response. It writes nothing else. -/

namespace Sys2Proof.Machine

@[simp] theorem octets_map_byte (s : ByteSeq) : octets (s.map .byte) = some s := by
  induction s with
  | nil => rfl
  | cons b s ih => simp [octets, ih]

theorem checkWellformed_bytes {s : ByteSeq} (h : 5 ≤ s.length) :
    checkWellformed (s.map .byte) = .ok s := by
  have h' : ¬ s.length < 5 := by omega
  simp [checkWellformed, h']

theorem checkWellformed_short {input : List Symbol} (h : input.length < 5) :
    checkWellformed input = .error .short := by
  simp [checkWellformed, h]

/-- A successful check gives the frame's bytes, at least five of them. -/
theorem octets_some {input : List Symbol} {s : ByteSeq} (h : octets input = some s) :
    input = s.map .byte := by
  induction input generalizing s with
  | nil => simp [octets] at h; subst h; rfl
  | cons x t ih =>
    cases x with
    | bad => simp [octets] at h
    | byte b =>
      simp only [octets, Option.map_eq_some_iff] at h
      obtain ⟨u, hu, rfl⟩ := h
      simp [ih hu]

theorem checkWellformed_ok {input : List Symbol} {s : ByteSeq}
    (h : checkWellformed input = .ok s) : input = s.map .byte ∧ 5 ≤ s.length := by
  unfold checkWellformed at h
  split at h
  · cases h
  · rename_i hl
    split at h
    · cases h
    · rename_i u hu
      cases h
      have hi := octets_some hu
      subst hi
      simp at hl
      exact ⟨rfl, by omega⟩

/-- Everything a `DECODE` that answers a next state can have done. -/
theorem State.decodeBy_cases {s t : State} {input : List Symbol} {g : ByteSeq → DecodedResponse}
    (h : s.decodeBy input g = .next t) :
    rxFits s.cfg input.length = true ∧
    ((∃ c, checkWellformed input = .error c ∧ t = s.answer (.malformedFrame c)) ∨
     (∃ b, checkWellformed input = .ok b ∧ t = s.answer (.decoded (g b)))) := by
  unfold State.decodeBy at h
  split at h
  · rename_i hr
    refine ⟨hr, ?_⟩
    split at h
    · rename_i c hc; cases h; exact .inl ⟨c, hc, rfl⟩
    · rename_i b hb; cases h; exact .inr ⟨b, hb, rfl⟩
  · cases h

/-- A `DECODE` of a whole frame that fits the buffer returns its decoded response. -/
theorem State.decodeBy_bytes {s : State} {b : ByteSeq} (g : ByteSeq → DecodedResponse)
    (hl : 5 ≤ b.length) (hr : rxFits s.cfg b.length = true) :
    s.decodeBy (b.map .byte) g = .next (s.answer (.decoded (g b))) := by
  simp [State.decodeBy, hr, checkWellformed_bytes hl]

@[simp] theorem RespFrame.bytes_length (f : RespFrame) (fb : U8) :
    (f.bytes fb).length = f.tail.length + 2 := rfl

@[simp] theorem byteAt_bytes_zero (f : RespFrame) (fb : U8) : byteAt (f.bytes fb) 0 = f.slaveId := rfl

@[simp] theorem byteAt_bytes_one (f : RespFrame) (fb : U8) : byteAt (f.bytes fb) 1 = fb := rfl

@[simp] theorem byteAt_bytes_tail (f : RespFrame) (fb : U8) (n : Nat) :
    byteAt (f.bytes fb) (n + 2) = byteAt f.tail n := rfl

/-- A dispatch class's step on a frame long enough and within the buffer. -/
theorem State.decodeClass_eq {s : State} {fb : U8} {f : RespFrame}
    (g : ByteSeq → RespBase → DecodedResponse)
    (hl : 3 ≤ f.tail.length) (hr : rxFits s.cfg (f.tail.length + 2) = true) :
    s.decodeClass fb f g =
      .next (s.answer (.decoded (g (f.bytes fb) (respBase (f.bytes fb) f.direction)))) := by
  apply State.decodeBy_bytes (fun b => g b (respBase b f.direction))
  · simp; omega
  · simpa using hr

end Sys2Proof.Machine
end

