-- ==== Sys2Proof/Laws/Encoder.lean ====
section
/-! SUPPORT. What `ENCODE` can do: an error outcome and nothing else, or the accepted request's record,
emission and frame. -/

namespace Sys2Proof.Machine

theorem State.encodeKey_rejected {s : State} {k : FnKey} {d : Descriptor} {c : InvalidCause}
    (h : checkRequest s.cfg k d = some c) : s.encodeKey k d = s.answer (.invalidRequest c) := by
  simp [State.encodeKey, h, State.raise]

theorem State.encodeKey_accepted {s : State} {k : FnKey} {d : Descriptor}
    (h : checkRequest s.cfg k d = none) :
    s.encodeKey k d =
      ((s.record k d.quantity).emit (requestFrame k d)).answer (.frame (requestFrame k d)) := by
  simp [State.encodeKey, h]

/-- The two outcomes of `ENCODE` of a supported function. -/
theorem State.encodeKey_cases (s : State) (k : FnKey) (d : Descriptor) :
    (∃ c, checkRequest s.cfg k d = some c ∧ s.encodeKey k d = s.answer (.invalidRequest c)) ∨
    (checkRequest s.cfg k d = none ∧
      s.encodeKey k d =
        ((s.record k d.quantity).emit (requestFrame k d)).answer (.frame (requestFrame k d))) := by
  cases h : checkRequest s.cfg k d with
  | some c => exact .inl ⟨c, rfl, State.encodeKey_rejected h⟩
  | none => exact .inr ⟨rfl, State.encodeKey_accepted h⟩

/-- The generic `ENCODE` of a byte that is no supported code. -/
theorem State.encodeAny_of_not_key {s : State} {fc : U8} {d : Descriptor} (h : fnKey? fc = none) :
    s.encodeAny fc d = s.answer (.invalidRequest .function) := by
  simp [State.encodeAny, h, State.raise]

@[simp] theorem State.encodeAny_code (s : State) (k : FnKey) (d : Descriptor) :
    s.encodeAny k.code d = s.encodeKey k d := by
  simp [State.encodeAny]

/-- A request passes the checks exactly when the slave id, the quantity and the values are in order. -/
theorem checkRequest_eq_none_iff (c : Config) (k : FnKey) (d : Descriptor) :
    checkRequest c k d = none ↔
      (1 ≤ d.slaveId.toNat ∧ d.slaveId.toNat ≤ 247) ∧
      (1 ≤ d.quantity.toNat ∧ d.quantity.toNat ≤ qmax c k) ∧
      valuesOk k d.quantity d.values = true := by
  have hq : d.quantity = 0#16 ↔ d.quantity.toNat = 0 := by
    rw [← BitVec.toNat_inj]; simp
  unfold checkRequest
  simp only [hq, BitVec.lt_def, BitVec.toNat_ofNat, gt_iff_lt]
  split
  · simp only [reduceCtorEq, false_iff]; omega
  · split
    · simp only [reduceCtorEq, false_iff]; omega
    · split
      · rename_i hv; simp [hv]
      · rename_i hv
        simp only [Bool.not_eq_false] at hv
        simp only [hv, and_true, true_iff]
        omega

end Sys2Proof.Machine
end

