-- ==== Sys2Proof/Laws/Exec.lean ====
section
/-! SUPPORT. What an instruction and a step can do, said once. -/

namespace Sys2Proof.Machine

/-- The `ENCODE` instruction of a supported function runs `ENCODE` of that function. -/
theorem exec_encodeInstr (k : FnKey) (d : Descriptor) (s : State) :
    exec (encodeInstr k d) s = .next (s.encodeKey k d) := by cases k <;> rfl

/-- The state after an accepted `ENCODE`. -/
def State.afterEncode (s : State) (k : FnKey) (d : Descriptor) : State :=
  ((s.record k d.quantity).emit (requestFrame k d)).answer (.frame (requestFrame k d))

theorem exec_encodeInstr_accepted {k : FnKey} {d : Descriptor} {s : State}
    (h : checkRequest s.cfg k d = none) :
    exec (encodeInstr k d) s = .next (s.afterEncode k d) := by
  rw [exec_encodeInstr, State.encodeKey_accepted h]; rfl

/-- Everything an instruction that answers a next state can have done: return a result and change
nothing else; write the accumulator; complete an accepted `ENCODE`; reset. (The second case of the
third form is the ill-formed `ENCODE.OTHER` of log entry 10.) -/
theorem exec_next_cases {i : Instr} {s t : State} (h : exec i s = .next t) :
    (∃ r, t = s.answer r) ∨
    (i = .crcInit ∧ t = (s.setAcc 0xFFFF#16).answer .noValue) ∨
    (∃ b, i = .crcUpdate b ∧ t = (s.setAcc (crcByte s.ACC b)).answer .noValue) ∨
    (∃ k d, (i = encodeInstr k d ∨ i = .encodeOther k.code d) ∧
      checkRequest s.cfg k d = none ∧ t = s.afterEncode k d) ∨
    (i = .reset ∧ t = s.clear.answer .noValue) := by
  have enc : ∀ k d, (i = encodeInstr k d ∨ i = .encodeOther k.code d) → t = s.encodeKey k d →
      (∃ r, t = s.answer r) ∨
      (∃ k d, (i = encodeInstr k d ∨ i = .encodeOther k.code d) ∧
        checkRequest s.cfg k d = none ∧ t = s.afterEncode k d) := by
    intro k d hi ht
    obtain ⟨c, -, hc⟩ | ⟨hn, hc⟩ := s.encodeKey_cases k d
    · exact .inl ⟨_, ht.trans hc⟩
    · exact .inr ⟨k, d, hi, hn, ht.trans hc⟩
  have dec : ∀ {input : List Symbol} {g : ByteSeq → DecodedResponse},
      s.decodeBy input g = .next t → ∃ r, t = s.answer r := by
    intro input g hd
    obtain ⟨-, ⟨c, -, ht⟩ | ⟨b, -, ht⟩⟩ := State.decodeBy_cases hd
    exacts [⟨_, ht⟩, ⟨_, ht⟩]
  cases i with
  | crcCompute bytes => cases h; exact .inl ⟨_, rfl⟩
  | crcInit => cases h; exact .inr (.inl ⟨rfl, rfl⟩)
  | crcUpdate b => cases h; exact .inr (.inr (.inl ⟨b, rfl, rfl⟩))
  | crcRead => cases h; exact .inl ⟨_, rfl⟩
  | encodeRc d => cases h; exact (enc .rc d (.inl rfl) rfl).imp_right fun e => .inr (.inr (.inl e))
  | encodeRdi d => cases h; exact (enc .rdi d (.inl rfl) rfl).imp_right fun e => .inr (.inr (.inl e))
  | encodeRhr d => cases h; exact (enc .rhr d (.inl rfl) rfl).imp_right fun e => .inr (.inr (.inl e))
  | encodeRir d => cases h; exact (enc .rir d (.inl rfl) rfl).imp_right fun e => .inr (.inr (.inl e))
  | encodeWsc d => cases h; exact (enc .wsc d (.inl rfl) rfl).imp_right fun e => .inr (.inr (.inl e))
  | encodeWsr d => cases h; exact (enc .wsr d (.inl rfl) rfl).imp_right fun e => .inr (.inr (.inl e))
  | encodeWmc d => cases h; exact (enc .wmc d (.inl rfl) rfl).imp_right fun e => .inr (.inr (.inl e))
  | encodeWmr d => cases h; exact (enc .wmr d (.inl rfl) rfl).imp_right fun e => .inr (.inr (.inl e))
  | encodeOther fc d =>
    cases h
    cases hk : fnKey? fc with
    | none => exact .inl ⟨_, State.encodeAny_of_not_key hk⟩
    | some k =>
      have hfc := (fnKey_eq_some_iff fc k).1 hk
      subst hfc
      exact (enc k d (.inr rfl) (State.encodeAny_code s k d)).imp_right
        fun e => .inr (.inr (.inl e))
  | decode input direction reqStart => exact .inl (dec h)
  | lookup fc => cases h; exact .inl ⟨_, rfl⟩
  | reset => cases h; exact .inr (.inr (.inr (.inr ⟨rfl, rfl⟩)))
  | decException fc f => exact .inl (dec h)
  | decRc f reqStart => exact .inl (dec h)
  | decRdi f reqStart => exact .inl (dec h)
  | decRhr f reqStart => exact .inl (dec h)
  | decRir f reqStart => exact .inl (dec h)
  | decWsc f => exact .inl (dec h)
  | decWsr f => exact .inl (dec h)
  | decWmc f => exact .inl (dec h)
  | decWmr f => exact .inl (dec h)
  | decUnknown fc f => exact .inl (dec h)

/-- Everything a step that answers a next state can have done: wait with nothing pending, or run the
first pending request's instruction on the rest of the queue. -/
theorem step_next_cases {s t : State} (h : step s = .next t) :
    (s.pending = [] ∧ t = s) ∨
    (∃ r rest i, s.pending = r :: rest ∧ decode r = .ok i ∧ exec i s.advance = .next t) := by
  unfold step State.fetch at h
  cases hp : s.pending with
  | nil => simp only [hp] at h; cases h; exact .inl ⟨rfl, rfl⟩
  | cons r rest =>
    cases hd : decode r with
    | ok i => simp only [hp, hd] at h; exact .inr ⟨r, rest, i, rfl, hd, h⟩
    | error e => simp only [hp, hd] at h; cases h

theorem step_cons {s : State} {r : Request} {rest : List Request} {i : Instr}
    (h : s.pending = r :: rest) (hd : decode r = .ok i) : step s = exec i s.advance := by
  simp [step, State.fetch_ok h hd]

end Sys2Proof.Machine
end

