-- ==== Sys2Proof/Laws/PerInstr.lean ====
section
/-! SUPPORT. The family `TableRow`: an instruction's encoding matches its row of the opcode table
(30_encoding.md rule R80). One lemma per constructor of `Instr`. -/

namespace Sys2Proof.Laws.TableRow

/-- The word matches a `cmd12` row: `(cmd & mask) = match`. -/
def MatchesCmd (i : Instr) (pattern mask : BitVec 12) : Prop := (encode i).cmd &&& mask = pattern

/-- The request is a `DECODE` of a frame whose byte 1 matches a `frame_byte1` row. -/
def MatchesFrame (i : Instr) (pattern mask : U8) : Prop :=
  (encode i).cmd = 0x600#12 ∧
    ∃ sid fb tail, (encode i).ops.input = .byte sid :: .byte fb :: tail ∧ fb &&& mask = pattern

/-- An instruction's encoding matches its row's `match` and `mask`; the rows that yield to others
(`ENCODE.OTHER`, `DEC.UNKNOWN`) are the ones whose code is none of the eight. -/
def Statement (i : Instr) : Prop :=
  match i with
  | .crcCompute _ => MatchesCmd i 0x100#12 0xFFF#12
  | .crcInit => MatchesCmd i 0x200#12 0xFFF#12
  | .crcUpdate _ => MatchesCmd i 0x300#12 0xF00#12
  | .crcRead => MatchesCmd i 0x400#12 0xFFF#12
  | .encodeRc _ => MatchesCmd i 0x501#12 0xFFF#12
  | .encodeRdi _ => MatchesCmd i 0x502#12 0xFFF#12
  | .encodeRhr _ => MatchesCmd i 0x503#12 0xFFF#12
  | .encodeRir _ => MatchesCmd i 0x504#12 0xFFF#12
  | .encodeWsc _ => MatchesCmd i 0x505#12 0xFFF#12
  | .encodeWsr _ => MatchesCmd i 0x506#12 0xFFF#12
  | .encodeWmc _ => MatchesCmd i 0x50F#12 0xFFF#12
  | .encodeWmr _ => MatchesCmd i 0x510#12 0xFFF#12
  | .encodeOther fc _ =>
    MatchesCmd i 0x500#12 0xF00#12 ∧ (i.wellFormed = true → fnKey? fc = none)
  | .decode _ _ _ => MatchesCmd i 0x600#12 0xFFF#12
  | .lookup _ => MatchesCmd i 0x700#12 0xF00#12
  | .reset => MatchesCmd i 0xF00#12 0xFFF#12
  | .decException _ _ => MatchesFrame i 0x80#8 0x80#8
  | .decRc _ _ => MatchesFrame i 0x01#8 0xFF#8
  | .decRdi _ _ => MatchesFrame i 0x02#8 0xFF#8
  | .decRhr _ _ => MatchesFrame i 0x03#8 0xFF#8
  | .decRir _ _ => MatchesFrame i 0x04#8 0xFF#8
  | .decWsc _ => MatchesFrame i 0x05#8 0xFF#8
  | .decWsr _ => MatchesFrame i 0x06#8 0xFF#8
  | .decWmc _ => MatchesFrame i 0x0F#8 0xFF#8
  | .decWmr _ => MatchesFrame i 0x10#8 0xFF#8
  | .decUnknown fc _ =>
    MatchesFrame i 0x00#8 0x80#8 ∧ (i.wellFormed = true → fnKey? (fc.setWidth 8) = none)

theorem crcCompute (bytes : ByteSeq) : Statement (.crcCompute bytes) := by
  change cmdWord 0x1#4 0x00#8 &&& 0xFFF#12 = 0x100#12
  decide
theorem crcInit : Statement .crcInit := by
  change cmdWord 0x2#4 0x00#8 &&& 0xFFF#12 = 0x200#12
  decide
theorem crcUpdate (b : U8) : Statement (.crcUpdate b) := by
  change cmdWord 0x3#4 b &&& 0xF00#12 = 0x300#12
  revert b; decide
theorem crcRead : Statement .crcRead := by
  change cmdWord 0x4#4 0x00#8 &&& 0xFFF#12 = 0x400#12
  decide
theorem encodeRc (d : Descriptor) : Statement (.encodeRc d) := by
  change cmdWord 0x5#4 0x01#8 &&& 0xFFF#12 = 0x501#12
  decide
theorem encodeRdi (d : Descriptor) : Statement (.encodeRdi d) := by
  change cmdWord 0x5#4 0x02#8 &&& 0xFFF#12 = 0x502#12
  decide
theorem encodeRhr (d : Descriptor) : Statement (.encodeRhr d) := by
  change cmdWord 0x5#4 0x03#8 &&& 0xFFF#12 = 0x503#12
  decide
theorem encodeRir (d : Descriptor) : Statement (.encodeRir d) := by
  change cmdWord 0x5#4 0x04#8 &&& 0xFFF#12 = 0x504#12
  decide
theorem encodeWsc (d : Descriptor) : Statement (.encodeWsc d) := by
  change cmdWord 0x5#4 0x05#8 &&& 0xFFF#12 = 0x505#12
  decide
theorem encodeWsr (d : Descriptor) : Statement (.encodeWsr d) := by
  change cmdWord 0x5#4 0x06#8 &&& 0xFFF#12 = 0x506#12
  decide
theorem encodeWmc (d : Descriptor) : Statement (.encodeWmc d) := by
  change cmdWord 0x5#4 0x0F#8 &&& 0xFFF#12 = 0x50F#12
  decide
theorem encodeWmr (d : Descriptor) : Statement (.encodeWmr d) := by
  change cmdWord 0x5#4 0x10#8 &&& 0xFFF#12 = 0x510#12
  decide
theorem encodeOther (fc : U8) (d : Descriptor) : Statement (.encodeOther fc d) := by
  constructor
  · change cmdWord 0x5#4 fc &&& 0xF00#12 = 0x500#12
    revert fc; decide
  · intro h
    rw [Machine.fnKey_eq_none_iff]
    simpa [Instr.wellFormed] using h
theorem decode (input : List Symbol) (direction : Direction) (reqStart : Option U16) :
    Statement (.decode input direction reqStart) := by
  change cmdWord 0x6#4 0x00#8 &&& 0xFFF#12 = 0x600#12
  decide
theorem lookup (fc : U8) : Statement (.lookup fc) := by
  change cmdWord 0x7#4 fc &&& 0xF00#12 = 0x700#12
  revert fc; decide
theorem reset : Statement .reset := by
  change cmdWord 0xF#4 0x00#8 &&& 0xFFF#12 = 0xF00#12
  decide
theorem decException (fc : BitVec 7) (f : RespFrame) : Statement (.decException fc f) := by
  refine ⟨rfl, _, _, _, rfl, ?_⟩
  revert fc; decide
theorem decRc (f : RespFrame) (reqStart : Option U16) : Statement (.decRc f reqStart) :=
  ⟨rfl, _, _, _, rfl, rfl⟩
theorem decRdi (f : RespFrame) (reqStart : Option U16) : Statement (.decRdi f reqStart) :=
  ⟨rfl, _, _, _, rfl, rfl⟩
theorem decRhr (f : RespFrame) (reqStart : Option U16) : Statement (.decRhr f reqStart) :=
  ⟨rfl, _, _, _, rfl, rfl⟩
theorem decRir (f : RespFrame) (reqStart : Option U16) : Statement (.decRir f reqStart) :=
  ⟨rfl, _, _, _, rfl, rfl⟩
theorem decWsc (f : RespFrame) : Statement (.decWsc f) := ⟨rfl, _, _, _, rfl, rfl⟩
theorem decWsr (f : RespFrame) : Statement (.decWsr f) := ⟨rfl, _, _, _, rfl, rfl⟩
theorem decWmc (f : RespFrame) : Statement (.decWmc f) := ⟨rfl, _, _, _, rfl, rfl⟩
theorem decWmr (f : RespFrame) : Statement (.decWmr f) := ⟨rfl, _, _, _, rfl, rfl⟩
theorem decUnknown (fc : BitVec 7) (f : RespFrame) : Statement (.decUnknown fc f) := by
  constructor
  · refine ⟨rfl, _, _, _, rfl, ?_⟩
    revert fc; decide
  · intro h
    rw [Machine.fnKey_eq_none_iff]
    simp only [Instr.wellFormed, Bool.and_eq_true, Bool.not_eq_true'] at h
    exact h.2

end Sys2Proof.Laws.TableRow
end

