-- ==== Sys2Proof/Tests/Slice0.lean ====
section
/-! SUPPORT. Tests: the expected results are those of 95_test_vectors.md (the vector's id stands beside
each), or worked by hand from the rule named. Then one witness for every statement with hypotheses. -/

namespace Sys2Proof.Tests

open Sys2Proof Sys2Proof.Machine

/-! ### Helpers -/

/-- The state an outcome answers, if it is a next state. -/
def after (o : Host.Outcome State Fault Refusal) : Option State :=
  match o with
  | .next t => some t
  | .fault _ => none
  | .refused _ => none

/-- What the operation of an outcome returned. -/
def got (o : Host.Outcome State Fault Refusal) : Option Result := (after o).map State.result

/-- The decoded response of an outcome. -/
def gotResp (o : Host.Outcome State Fault Refusal) : Option DecodedResponse :=
  match got o with
  | some (.decoded r) => some r
  | _ => none

/-- Function code, `crcValid`, start address and values of the decoded response. -/
def gotFields (o : Host.Outcome State Fault Refusal) :
    Option (U8 × Bool × Option U16 × DecodedValues) :=
  (gotResp o).map fun r => (r.functionCode, r.crcValid, r.startAddress, r.values)

/-- The refusal of an outcome. -/
def refusal (o : Host.Outcome State Fault Refusal) : Option Refusal :=
  match o with
  | .next _ => none
  | .fault _ => none
  | .refused r => some r

/-- The reset state with one tracker entry known. -/
def knows (k : FnKey) (q : U16) : State := State.reset.record k q

/-- The reset state with these requests issued. -/
def issued (l : List Request) : State := { State.reset with pending := l }

/-- A `DECODE` input of octets. -/
def wire (b : ByteSeq) : List Symbol := b.map .byte

/-- The parameters of the reset state with a decoder buffer of `m` elements. -/
def limited (m : Nat) : State :=
  { State.reset with cfg := { Config.default with rxMaxLen := some m } }

/-! ### Ill-formed terms -/

theorem test_wf_encodeOther_supported_code_refused (d : Descriptor) :
    (Instr.encodeOther 0x01#8 d).wellFormed = false ∧
    (Instr.encodeOther 0x10#8 d).wellFormed = false ∧
    (Instr.encodeOther 0x07#8 d).wellFormed = true :=
  ⟨rfl, rfl, rfl⟩

/-- A frame of 4 bytes. -/
def shortFrame : RespFrame := ⟨0x01#8, [0x00#8, 0x00#8], .response⟩

/-- A frame of 5 bytes. -/
def fiveFrame : RespFrame := ⟨0x01#8, [0x00#8, 0x00#8, 0x00#8], .response⟩

theorem test_wf_short_frame_refused :
    (Instr.decException 0x03#7 shortFrame).wellFormed = false ∧
    (Instr.decRc shortFrame none).wellFormed = false ∧
    (Instr.decRdi shortFrame none).wellFormed = false ∧
    (Instr.decRhr shortFrame none).wellFormed = false ∧
    (Instr.decRir shortFrame none).wellFormed = false ∧
    (Instr.decWsc shortFrame).wellFormed = false ∧
    (Instr.decWsr shortFrame).wellFormed = false ∧
    (Instr.decWmc shortFrame).wellFormed = false ∧
    (Instr.decWmr shortFrame).wellFormed = false ∧
    (Instr.decUnknown 0x07#7 shortFrame).wellFormed = false := by decide

theorem test_wf_five_byte_frame_accepted :
    (Instr.decException 0x03#7 fiveFrame).wellFormed = true ∧
    (Instr.decRc fiveFrame none).wellFormed = true ∧
    (Instr.decUnknown 0x07#7 fiveFrame).wellFormed = true := by decide

theorem test_wf_decUnknown_supported_code_refused :
    (Instr.decUnknown 0x03#7 fiveFrame).wellFormed = false := by decide

/-! ### Decoding: words written out from 30_encoding.md rule R77 and the opcode table -/

/-- Operands that a decode test can tell apart. -/
def someOps : Operands :=
  { bytes := [0x31#8], slaveId := 0x11#8, startAddress := 0x0013#16, quantity := 0x0025#16,
    values := .coils [true], input := [.bad], direction := .response, reqStart := some 0x0007#16 }

/-- The descriptor among them. -/
def someDesc : Descriptor := ⟨0x11#8, 0x0013#16, 0x0025#16, .coils [true]⟩

/-- The command word of 4 operation bits and 8 argument bits, most significant bit first. -/
def cmdBits (op : BitVec 4) (arg : BitVec 8) : Request := ⟨op ++ arg, someOps⟩

theorem test_decode_crc_words :
    decode (cmdBits 0b0001#4 0b00000000#8) = .ok (.crcCompute [0x31#8]) ∧
    decode (cmdBits 0b0010#4 0b00000000#8) = .ok .crcInit ∧
    decode (cmdBits 0b0011#4 0b10100101#8) = .ok (.crcUpdate 0xA5#8) ∧
    decode (cmdBits 0b0100#4 0b00000000#8) = .ok .crcRead := ⟨rfl, rfl, rfl, rfl⟩

theorem test_decode_encode_words :
    decode (cmdBits 0b0101#4 0b00000001#8) = .ok (.encodeRc someDesc) ∧
    decode (cmdBits 0b0101#4 0b00000010#8) = .ok (.encodeRdi someDesc) ∧
    decode (cmdBits 0b0101#4 0b00000011#8) = .ok (.encodeRhr someDesc) ∧
    decode (cmdBits 0b0101#4 0b00000100#8) = .ok (.encodeRir someDesc) ∧
    decode (cmdBits 0b0101#4 0b00000101#8) = .ok (.encodeWsc someDesc) ∧
    decode (cmdBits 0b0101#4 0b00000110#8) = .ok (.encodeWsr someDesc) ∧
    decode (cmdBits 0b0101#4 0b00001111#8) = .ok (.encodeWmc someDesc) ∧
    decode (cmdBits 0b0101#4 0b00010000#8) = .ok (.encodeWmr someDesc) ∧
    decode (cmdBits 0b0101#4 0b10000011#8) = .ok (.encodeOther 0x83#8 someDesc) :=
  ⟨rfl, rfl, rfl, rfl, rfl, rfl, rfl, rfl, rfl⟩

theorem test_decode_other_words :
    decode (cmdBits 0b0110#4 0b00000000#8) = .ok (.decode [.bad] .response (some 0x0007#16)) ∧
    decode (cmdBits 0b0111#4 0b11111111#8) = .ok (.lookup 0xFF#8) ∧
    decode (cmdBits 0b1111#4 0b00000000#8) = .ok .reset := ⟨rfl, rfl, rfl⟩

/-- The words of vectors M-7 to M-10. -/
theorem test_decode_rejects_by_name :
    decode (cmdBits 0b0000#4 0b00000000#8) = .error .reservedOp ∧
    decode (cmdBits 0b1000#4 0b00000000#8) = .error .reservedOp ∧
    decode (cmdBits 0b1001#4 0b00000000#8) = .error .reservedOp ∧
    decode (cmdBits 0b1110#4 0b11111111#8) = .error .reservedOp ∧
    decode (cmdBits 0b0001#4 0b00000001#8) = .error .nonzeroArg ∧
    decode (cmdBits 0b0010#4 0b00000001#8) = .error .nonzeroArg ∧
    decode (cmdBits 0b0100#4 0b00000001#8) = .error .nonzeroArg ∧
    decode (cmdBits 0b0110#4 0b00000001#8) = .error .nonzeroArg ∧
    decode (cmdBits 0b1111#4 0b00000001#8) = .error .nonzeroArg :=
  ⟨rfl, rfl, rfl, rfl, rfl, rfl, rfl, rfl, rfl⟩

/-- A `DECODE` of the 5-byte frame with byte 1 `fb`. -/
def classOf (fb : U8) : Except DecodeError Instr :=
  decode (decodeRequest (wire [0x01#8, fb, 0x00#8, 0x00#8, 0x00#8]) .response (some 0x0007#16))

/-- The dispatch classes, from 42_decoder.md rule R150 and the opcode table's `frame_byte1` rows. -/
theorem test_decode_frame_classes :
    classOf 0b10000011#8 = .ok (.decException 0x03#7 fiveFrame) ∧
    classOf 0b00000001#8 = .ok (.decRc fiveFrame (some 0x0007#16)) ∧
    classOf 0b00000010#8 = .ok (.decRdi fiveFrame (some 0x0007#16)) ∧
    classOf 0b00000011#8 = .ok (.decRhr fiveFrame (some 0x0007#16)) ∧
    classOf 0b00000100#8 = .ok (.decRir fiveFrame (some 0x0007#16)) ∧
    classOf 0b00000101#8 = .ok (.decWsc fiveFrame) ∧
    classOf 0b00000110#8 = .ok (.decWsr fiveFrame) ∧
    classOf 0b00001111#8 = .ok (.decWmc fiveFrame) ∧
    classOf 0b00010000#8 = .ok (.decWmr fiveFrame) ∧
    classOf 0b00000111#8 = .ok (.decUnknown 0x07#7 fiveFrame) :=
  ⟨rfl, rfl, rfl, rfl, rfl, rfl, rfl, rfl, rfl, rfl⟩

/-- Each row's own pattern selects that row. -/
theorem test_tables_cover_their_patterns :
    cmdTable.all (fun r => selectRow cmdTable r.pattern == some r.row) = true ∧
    frameTable.all (fun r => selectRow frameTable r.pattern == some r.row) = true := by decide

theorem test_decodeTableWord_and_step :
    decodeTableWord 12 0x3A5 = some (.crcUpdate 0xA5#8) ∧
    decodeTableWord 8 0x83 =
      some (.decException 0x03#7 ⟨0x00#8, [0x00#8, 0x00#8, 0x00#8], .request⟩) ∧
    decodeTableWord 12 0x000 = none := ⟨rfl, rfl, rfl⟩

/-! ### Steps -/

theorem test_step_runs_first_request :
    got (step (State.reset.withFetchWord 12 0xF00)) = some .noValue ∧
    (after (step (issued [encode (.crcUpdate 0x01#8), encode .crcRead]))).map State.pending =
      some [encode .crcRead] := by decide

theorem test_step_idle_and_refusals :
    after (step State.reset) = some State.reset ∧
    refusal (step (issued [⟨0x900#12, Operands.zero⟩])) = some .reservedOp ∧
    refusal (step (issued [⟨0x201#12, Operands.zero⟩])) = some .nonzeroArg := by decide

/-! ### The generator -/

/-- C-3 and L1-1. -/
theorem test_crcCompute :
    got (exec (.crcCompute [0x01#8]) State.reset) = some (.crc 0x807E#16) ∧
    got (exec (.crcCompute []) State.reset) = some (.crc 0xFFFF#16) := by decide +kernel

/-- C-7; R103. -/
theorem test_crcInit :
    (after (exec .crcInit { State.reset with ACC := 0x1234#16 })).map State.ACC =
      some 0xFFFF#16 := by decide +kernel

/-- P2, lines 2 and 10. -/
theorem test_crcUpdate :
    (after (exec (.crcUpdate 0x01#8) State.reset)).map State.ACC = some 0x807E#16 ∧
    (after (exec (.crcUpdate 0xC5#8) { State.reset with ACC := 0xCDC5#16 })).map State.ACC =
      some 0x00CD#16 := by decide +kernel

/-- R105. -/
theorem test_crcRead :
    got (exec .crcRead { State.reset with ACC := 0xCDC5#16 }) = some (.crc 0xCDC5#16) := by decide +kernel

/-- L1-2. -/
theorem test_crc16_reference :
    crc16 [0x01#8, 0x03#8, 0x00#8, 0x00#8, 0x00#8, 0x0A#8] = 0xCDC5#16 := by decide +kernel

/-- L1-4's example, and L1-2's frame. -/
theorem test_crcOk :
    crcOk [0x01#8, 0x03#8, 0x00#8, 0x00#8, 0x00#8, 0x0A#8, 0xC5#8, 0xCD#8] = true ∧
    crcOk [0x01#8, 0x03#8, 0x00#8, 0x00#8, 0x00#8, 0x0B#8, 0xC5#8, 0xCD#8] = false := by decide +kernel

/-! ### The encoder -/

/-- E-2, E-28. -/
theorem test_encodeRc :
    got (exec (.encodeRc ⟨1#8, 0x0013#16, 5#16, .none⟩) State.reset) =
      some (.frame [0x01#8, 0x01#8, 0x00#8, 0x13#8, 0x00#8, 0x05#8, 0x0D#8, 0xCC#8]) ∧
    got (exec (.encodeRc ⟨1#8, 0#16, 2001#16, .none⟩) State.reset) =
      some (.invalidRequest .quantity) := by decide +kernel

/-- E-5. -/
theorem test_encodeRdi :
    got (exec (.encodeRdi ⟨1#8, 0x00C4#16, 22#16, .none⟩) State.reset) =
      some (.frame [0x01#8, 0x02#8, 0x00#8, 0xC4#8, 0x00#8, 0x16#8, 0xB8#8, 0x39#8]) := by decide +kernel

/-- E-1 with its tracker write and emission; E-24. -/
theorem test_encodeRhr :
    (after (exec (.encodeRhr ⟨1#8, 0#16, 10#16, .none⟩) State.reset)).map
        (fun t => (t.T.rhr, t.emitted)) =
      some (.known 10#16, [[0x01#8, 0x03#8, 0x00#8, 0x00#8, 0x00#8, 0x0A#8, 0xC5#8, 0xCD#8]]) ∧
    got (exec (.encodeRhr ⟨248#8, 0#16, 1#16, .none⟩) State.reset) =
      some (.invalidRequest .slave) := by decide +kernel

/-- E-6. -/
theorem test_encodeRir :
    got (exec (.encodeRir ⟨1#8, 0x0008#16, 1#16, .none⟩) State.reset) =
      some (.frame [0x01#8, 0x04#8, 0x00#8, 0x08#8, 0x00#8, 0x01#8, 0xB0#8, 0x08#8]) := by decide +kernel

/-- E-8, L1-7. -/
theorem test_encodeWsc :
    got (exec (.encodeWsc ⟨1#8, 0x00AC#16, 1#16, .coils [true]⟩) State.reset) =
      some (.frame [0x01#8, 0x05#8, 0x00#8, 0xAC#8, 0xFF#8, 0x00#8, 0x4C#8, 0x1B#8]) ∧
    got (exec (.encodeWsc ⟨1#8, 0x00AC#16, 2#16, .coils [true, true]⟩) State.reset) =
      some (.invalidRequest .quantity) := by decide +kernel

/-- E-10, E-36. -/
theorem test_encodeWsr :
    got (exec (.encodeWsr ⟨1#8, 0x0001#16, 1#16, .regs [0x0003#16]⟩) State.reset) =
      some (.frame [0x01#8, 0x06#8, 0x00#8, 0x01#8, 0x00#8, 0x03#8, 0x98#8, 0x0B#8]) ∧
    got (exec (.encodeWsr ⟨1#8, 0#16, 1#16, .none⟩) State.reset) =
      some (.invalidRequest .values) := by decide +kernel

/-- E-12, E-32. -/
theorem test_encodeWmc :
    got (exec (.encodeWmc ⟨1#8, 0x0013#16, 10#16,
        .coils [true, false, true, true, false, false, true, true, true, false]⟩) State.reset) =
      some (.frame [0x01#8, 0x0F#8, 0x00#8, 0x13#8, 0x00#8, 0x0A#8, 0x02#8, 0xCD#8, 0x01#8,
        0x72#8, 0xCB#8]) ∧
    got (exec (.encodeWmc ⟨1#8, 0#16, 3#16, .coils [true, true]⟩) State.reset) =
      some (.invalidRequest .values) := by decide +kernel

/-- E-16, E-33. -/
theorem test_encodeWmr :
    got (exec (.encodeWmr ⟨1#8, 0x0001#16, 2#16, .regs [0x000A#16, 0x0102#16]⟩) State.reset) =
      some (.frame [0x01#8, 0x10#8, 0x00#8, 0x01#8, 0x00#8, 0x02#8, 0x04#8, 0x00#8, 0x0A#8,
        0x01#8, 0x02#8, 0x92#8, 0x30#8]) ∧
    got (exec (.encodeWmr ⟨1#8, 0#16, 1#16, .coils [true]⟩) State.reset) =
      some (.invalidRequest .values) := by decide +kernel

/-- E-21. -/
theorem test_encodeOther :
    got (exec (.encodeOther 0x07#8 ⟨0#8, 0#16, 0#16, .none⟩) State.reset) =
      some (.invalidRequest .function) := by decide +kernel

/-! ### The decoder -/

/-- U-3, U-5. -/
theorem test_decode_malformed :
    got (exec (.decode (wire [0x01#8, 0x07#8, 0x41#8, 0xE2#8]) .response none) State.reset) =
      some (.malformedFrame .short) ∧
    got (exec (.decode [.byte 0x01#8, .byte 0x03#8, .bad, .byte 0x00#8, .byte 0x00#8] .response none)
      State.reset) = some (.malformedFrame .badOctet) := by decide +kernel

/-- U-6; rule R9 at and beyond the limit. -/
theorem test_decode_short_wins_and_limit :
    got (exec (.decode [.byte 0x01#8, .bad, .byte 0x03#8] .response none) State.reset) =
      some (.malformedFrame .short) ∧
    (after (exec (.decode (wire [0x01#8, 0x07#8, 0x00#8, 0x22#8, 0x30#8]) .response none)
      (limited 5))).isSome = true ∧
    refusal (exec (.decode [.bad, .bad, .bad, .bad, .bad, .bad] .response none) (limited 5)) =
      some .rxTooLong := by decide +kernel

/-- X-1, X-7. -/
theorem test_decException :
    gotFields (exec (.decException 0x03#7 ⟨0x01#8, [0x02#8, 0xC0#8, 0xF1#8], .response⟩)
      State.reset) = some (0x03#8, true, none, .exception 0x02#8 .illegalDataAddress) ∧
    gotFields (exec (.decException 0x7F#7 ⟨0x01#8, [0x0C#8, 0x61#8, 0xF5#8], .response⟩)
      State.reset) = some (0x7F#8, true, none, .exception 0x0C#8 .unknownException) := by decide +kernel

/-- B-1, B-7. -/
theorem test_decRc :
    gotFields (exec (.decRc ⟨0x01#8, [0x01#8, 0x15#8, 0x90#8, 0x47#8], .response⟩ none)
      (knows .rc 5#16)) = some (0x01#8, true, none, .bits [true, false, true, false, true]) ∧
    gotFields (exec (.decRc ⟨0x01#8, [0x04#8, 0xFF#8, 0x12#8, 0x98#8], .response⟩ none)
      (knows .rc 20#16)) = some (0x01#8, true, none, .bits (List.replicate 8 true)) := by decide +kernel

/-- B-10; B-4's shape for code 0x02. -/
theorem test_decRdi :
    gotFields (exec (.decRdi ⟨0x01#8, [0x01#8, 0xFF#8, 0xE1#8, 0xC8#8], .response⟩
      (some 0x00C4#16)) (knows .rc 3#16)) =
      some (0x02#8, true, some 0x00C4#16, .bits (List.replicate 8 true)) ∧
    (gotFields (exec (.decRdi ⟨0x01#8, [0x00#8, 0x21#8, 0x90#8], .response⟩ none)
      State.reset)).map (fun p => p.2.2.2) = some (.bits []) := by decide +kernel

/-- G-3, G-11. -/
theorem test_decRhr :
    gotFields (exec (.decRhr ⟨0x01#8, [0x03#8, 0x00#8, 0x0A#8, 0x07#8, 0x02#8, 0xEC#8], .response⟩
      none) State.reset) = some (0x03#8, true, none, .regs [0x000A#16]) ∧
    gotFields (exec (.decRhr ⟨0x01#8, [0x04#8, 0x01#8, 0x02#8, 0x03#8, 0x04#8, 0x5B#8, 0x3D#8],
      .response⟩ (some 0#16)) State.reset) =
      some (0x03#8, false, some 0#16, .regs [0x0102#16, 0x0304#16]) := by decide +kernel

/-- G-9, G-10. -/
theorem test_decRir :
    gotFields (exec (.decRir ⟨0x01#8, [0x02#8, 0x00#8, 0x0A#8, 0x39#8, 0x37#8], .response⟩
      none) State.reset) = some (0x04#8, true, none, .regs [0x000A#16]) ∧
    gotFields (exec (.decRir ⟨0x01#8, [0x00#8, 0x22#8, 0xC0#8], .response⟩ none) State.reset) =
      some (0x04#8, true, none, .regs []) := by decide +kernel

/-- W-3, W-6. -/
theorem test_decWsc :
    gotFields (exec (.decWsc ⟨0x01#8, [0x00#8, 0xAC#8, 0x12#8, 0x34#8, 0x00#8, 0x9C#8],
      .response⟩) State.reset) =
      some (0x05#8, true, some 0x00AC#16, .coilEcho (some false) (some 0x1234#16)) ∧
    gotFields (exec (.decWsc ⟨0x01#8, [0x00#8, 0xAC#8, 0xFF#8, 0x24#8, 0x4C#8], .response⟩)
      State.reset) = some (0x05#8, true, some 0x00AC#16, .coilEcho none none) := by decide +kernel

/-- W-7, W-8. -/
theorem test_decWsr :
    gotFields (exec (.decWsr ⟨0x01#8, [0x00#8, 0x01#8, 0x00#8, 0x03#8, 0x98#8, 0x0B#8],
      .response⟩) State.reset) =
      some (0x06#8, true, some 0x0001#16, .regEcho (some 0x0003#16)) ∧
    gotFields (exec (.decWsr ⟨0x01#8, [0x00#8, 0x01#8, 0x00#8, 0x18#8, 0xD8#8], .response⟩)
      State.reset) = some (0x06#8, true, some 0x0001#16, .regEcho none) := by decide +kernel

/-- W-9, W-11. -/
theorem test_decWmc :
    gotFields (exec (.decWmc ⟨0x01#8, [0x00#8, 0x13#8, 0x00#8, 0x0A#8, 0x24#8, 0x09#8],
      .response⟩) State.reset) =
      some (0x0F#8, true, some 0x0013#16, .qtyEcho (some 10#16)) ∧
    gotFields (exec (.decWmc ⟨0x01#8, [0x00#8, 0x13#8, 0x70#8, 0x16#8], .response⟩)
      State.reset) = some (0x0F#8, true, some 0x0013#16, .qtyEcho none) := by decide +kernel

/-- W-10, W-12. -/
theorem test_decWmr :
    gotFields (exec (.decWmr ⟨0x01#8, [0x00#8, 0x01#8, 0x00#8, 0x02#8, 0x10#8, 0x08#8],
      .response⟩) State.reset) =
      some (0x10#8, true, some 0x0001#16, .qtyEcho (some 2#16)) ∧
    gotFields (exec (.decWmr ⟨0x01#8, [0x00#8, 0x01#8, 0x00#8, 0x02#8, 0x00#8, 0x09#8, 0xCC#8],
      .response⟩) State.reset) =
      some (0x10#8, true, some 0x0001#16, .qtyEcho (some 2#16)) := by decide +kernel

/-- U-1. -/
theorem test_decUnknown :
    gotFields (exec (.decUnknown 0x07#7 ⟨0x01#8, [0x00#8, 0x22#8, 0x30#8], .response⟩)
      State.reset) = some (0x07#8, true, none, .empty) := by decide +kernel

/-- U-7, U-8, through the whole decoder and step. -/
theorem test_step_decodes_a_chunk :
    gotFields (step (issued [decodeRequest (wire [0x01#8, 0x03#8, 0x02#8, 0x00#8, 0x0A#8, 0x38#8,
      0x43#8]) .request none])) = some (0x03#8, true, none, .regs [0x000A#16]) ∧
    gotFields (step (issued [decodeRequest (wire [0x01#8, 0x03#8, 0x02#8, 0x00#8, 0x0A#8, 0x38#8,
      0x43#8, 0x01#8, 0x83#8, 0x02#8, 0xC0#8, 0xF1#8]) .response none])) =
      some (0x03#8, false, none, .regs [0x000A#16]) := by decide +kernel

/-! ### Tracker and reset -/

/-- K-2, K-3. -/
theorem test_lookup :
    got (exec (.lookup 0x10#8) (knows .wmr 2#16)) = some (.entry (.known 2#16)) ∧
    got (exec (.lookup 0x83#8) (knows .rhr 2#16)) = some (.entry .unknown) := by decide +kernel

/-- K-4, K-5. -/
theorem test_reset :
    (after (exec .reset { knows .rc 5#16 with ACC := 0x807E#16 })).map
      (fun t => (t.T, t.ACC)) = some (Tracker.empty, 0xFFFF#16) := by decide +kernel

/-! ### Witnesses: the hypotheses of each statement can be met

One theorem for each obligation that has hypotheses, named after it; boundary values where a clause has a
range. -/

/-- L1-2's frame. -/
def sampleFrame : ByteSeq := [0x01#8, 0x03#8, 0x00#8, 0x00#8, 0x00#8, 0x0A#8, 0xC5#8, 0xCD#8]

/-- X-1's frame after byte 1: the shortest frame that decodes. -/
def sampleTail : RespFrame := ⟨0x01#8, [0x02#8, 0xC0#8, 0xF1#8], .response⟩

/-- The smallest accepted request of each function. -/
def lowDesc (k : FnKey) : Descriptor :=
  match k with
  | .rc => ⟨1#8, 0#16, 1#16, .none⟩
  | .rdi => ⟨1#8, 0#16, 1#16, .none⟩
  | .rhr => ⟨1#8, 0#16, 1#16, .none⟩
  | .rir => ⟨1#8, 0#16, 1#16, .none⟩
  | .wsc => ⟨1#8, 0#16, 1#16, .coils [true]⟩
  | .wsr => ⟨1#8, 0#16, 1#16, .regs [3#16]⟩
  | .wmc => ⟨1#8, 0#16, 1#16, .coils [true]⟩
  | .wmr => ⟨1#8, 0#16, 1#16, .regs [3#16]⟩

/-- The largest accepted request of each function, for the default caps. -/
def highDesc (k : FnKey) : Descriptor :=
  match k with
  | .rc => ⟨247#8, 0xFFFF#16, 2000#16, .none⟩
  | .rdi => ⟨247#8, 0xFFFF#16, 2000#16, .none⟩
  | .rhr => ⟨247#8, 0xFFFF#16, 125#16, .none⟩
  | .rir => ⟨247#8, 0xFFFF#16, 125#16, .none⟩
  | .wsc => ⟨247#8, 0xFFFF#16, 1#16, .coils [false]⟩
  | .wsr => ⟨247#8, 0xFFFF#16, 1#16, .regs [0xFFFF#16]⟩
  | .wmc => ⟨247#8, 0xFFFF#16, 1968#16, .coils (List.replicate 1968 true)⟩
  | .wmr => ⟨247#8, 0xFFFF#16, 123#16, .regs (List.replicate 123 0xFFFF#16)⟩

theorem accepted_low (k : FnKey) : Accepted Config.default k (lowDesc k) := by
  cases k <;> exact ⟨by decide, by decide, by simp [ValuesFit, lowDesc]⟩

theorem accepted_high (k : FnKey) : Accepted Config.default k (highDesc k) := by
  have hv : ValuesFit k (highDesc k).quantity (highDesc k).values := by
    cases k
    case wsc => exact ⟨_, rfl⟩
    case wsr => exact ⟨_, rfl⟩
    case wmc => exact ⟨_, rfl, List.length_replicate⟩
    case wmr => exact ⟨_, rfl, List.length_replicate⟩
    all_goals trivial
  exact ⟨by cases k <;> decide, by cases k <;> decide, hv⟩

/-- A request with a bad slave id, at both ends; a bad quantity, at both ends; bad values. -/
theorem rejected_each_way (k : FnKey) :
    ¬ SlaveFits { lowDesc k with slaveId := 0#8 } ∧
    ¬ SlaveFits { lowDesc k with slaveId := 248#8 } ∧
    (SlaveFits (lowDesc k) ∧ ¬ QuantityFits Config.default k { lowDesc k with quantity := 0#16 }) ∧
    ¬ QuantityFits Config.default k
      { highDesc k with quantity := (highDesc k).quantity + 1#16 } := by
  cases k <;> decide

theorem wrong_values_each_way :
    ¬ ValuesFit .wsc 1#16 (.coils []) ∧ ¬ ValuesFit .wsc 1#16 (.regs [0xFF00#16]) ∧
    ¬ ValuesFit .wsr 1#16 .none ∧ ¬ ValuesFit .wmc 3#16 (.coils [true, true]) ∧
    ¬ ValuesFit .wmr 1#16 (.coils [true]) := by
  simp [ValuesFit]

theorem witness_PowerOnHoldsResetValues : exec .reset (knows .rc 5#16) = .next State.reset := rfl

theorem witness_CrcUpdateStepsAcc :
    (List.range 8).foldl (fun a _ => if a.getLsbD 0 then (a >>> 1) ^^^ 0xA001#16 else a >>> 1)
      (0xFFFF#16 ^^^ (0x01#8).setWidth 16) = 0x807E#16 := by decide +kernel

theorem witness_SingleBitFlipIsDetected :
    2 ≤ sampleFrame.length ∧ crcOk sampleFrame = true ∧ 0 < sampleFrame.length ∧
    7 < sampleFrame.length ∧ (0 : Nat) < 8 ∧ 7 < 8 := by decide +kernel

/-- The operations of a streaming run after its `CRC_INIT`. -/
def streamOps : List Request := [encode (.crcUpdate 0x01#8), encode (.lookup 0x01#8)]

theorem witness_StreamingCrcMatchesCrc16 :
    decode (encode .crcInit) = .ok .crcInit ∧
    (∀ q ∈ streamOps, decode q ≠ .ok .crcInit ∧ decode q ≠ .ok .reset) ∧
    ∃ t, runSteps (streamOps.length + 1) (issued (encode .crcInit :: (streamOps ++ []))) = .next t := by
  refine ⟨rfl, ?_, _, rfl⟩
  intro q hq
  simp only [streamOps, List.mem_cons, List.not_mem_nil, or_false] at hq
  rcases hq with rfl | rfl
  · exact ⟨fun h => (nomatch h), fun h => (nomatch h)⟩
  · exact ⟨fun h => (nomatch h), fun h => (nomatch h)⟩

theorem witness_EncodeReadRequests :
    Accepted Config.default .rc (highDesc .rc) ∧ Accepted Config.default .rdi (lowDesc .rdi) ∧
    Accepted Config.default .rhr (highDesc .rhr) ∧ Accepted Config.default .rir (lowDesc .rir) ∧
    ¬ SlaveFits { lowDesc .rc with slaveId := 248#8 } :=
  ⟨accepted_high _, accepted_low _, accepted_high _, accepted_low _, by decide⟩

theorem witness_EncodeWriteSingleCoil :
    (lowDesc .wsc).values = .coils [true] ∧ Accepted State.reset.cfg .wsc (lowDesc .wsc) ∧
    (highDesc .wsc).values = .coils [false] ∧ Accepted State.reset.cfg .wsc (highDesc .wsc) :=
  ⟨rfl, accepted_low _, rfl, accepted_high _⟩

theorem witness_EncodeWriteSingleRegister :
    (highDesc .wsr).values = .regs [0xFFFF#16] ∧ Accepted State.reset.cfg .wsr (highDesc .wsr) :=
  ⟨rfl, accepted_high _⟩

theorem default_wf : Config.default.wf := by
  refine ⟨by decide, by decide, by decide, by decide, by decide, by decide, ?_⟩
  intro n hn; cases hn

theorem witness_EncodeWriteMultipleCoils :
    State.reset.cfg.wf ∧ (highDesc .wmc).values = .coils (List.replicate 1968 true) ∧
    SlaveFits (highDesc .wmc) ∧ QuantityFits State.reset.cfg .wmc (highDesc .wmc) ∧
    (List.replicate 1968 true).length = (highDesc .wmc).quantity.toNat ∧
    Accepted State.reset.cfg .wmc (highDesc .wmc) :=
  ⟨default_wf, rfl, by decide, by decide, List.length_replicate, accepted_high _⟩

theorem witness_EncodeWriteMultipleRegisters :
    State.reset.cfg.wf ∧ (highDesc .wmr).values = .regs (List.replicate 123 0xFFFF#16) ∧
    SlaveFits (highDesc .wmr) ∧ QuantityFits State.reset.cfg .wmr (highDesc .wmr) ∧
    (List.replicate 123 0xFFFF#16).length = (highDesc .wmr).quantity.toNat ∧
    Accepted State.reset.cfg .wmr (highDesc .wmr) :=
  ⟨default_wf, rfl, by decide, by decide, List.length_replicate, accepted_high _⟩

/-- Each clause: a bad code, a bad slave id, a bad quantity, bad values, an accepted request. -/
theorem witness_EncodeChecksInOrder :
    (encode (.encodeOther 0x07#8 (lowDesc .rc))).cmd = 0x500#12 ||| (0x07#8).setWidth 12 ∧
    (0x07#8 : U8) ∉ supportedCodes ∧
    (encode (.encodeWsc (lowDesc .wsc))).cmd = 0x500#12 ||| FnKey.wsc.code.setWidth 12 ∧
    ¬ SlaveFits { lowDesc .wsc with slaveId := 0#8 } ∧
    ¬ QuantityFits Config.default .wsc { lowDesc .wsc with quantity := 2#16 } ∧
    ¬ ValuesFit .wsc 1#16 (.coils []) ∧
    Accepted Config.default .wsc (lowDesc .wsc) :=
  ⟨rfl, by decide, rfl, by decide, by decide, by simp [ValuesFit], accepted_low _⟩

theorem witness_EncodeRejectsOtherCodes :
    (0x00#8 : U8) ∉ supportedCodes ∧ (0x07#8 : U8) ∉ supportedCodes ∧
    (0x83#8 : U8) ∉ supportedCodes ∧ (0x83#8 : U8).getLsbD 7 = true ∧
    someOps.descriptor = someDesc := by decide

theorem witness_EncodeRecordsQuantity (k : FnKey) :
    Accepted State.reset.cfg k (lowDesc k) ∧ Accepted State.reset.cfg k (highDesc k) :=
  ⟨accepted_low k, accepted_high k⟩

theorem witness_EncodedFrameLengths (k : FnKey) :
    Accepted State.reset.cfg k (lowDesc k) ∧ Accepted State.reset.cfg k (highDesc k) :=
  ⟨accepted_low k, accepted_high k⟩

theorem witness_LookupAfterEncodeGivesQuantity (k : FnKey) :
    Accepted State.reset.cfg k (highDesc k) := accepted_high k

theorem witness_LookupReturnsEntry : (0xFF#8 : U8) ∉ supportedCodes := by decide

/-- Four elements; five, one of them bad; no limit, and a limit just met. -/
theorem witness_DecodeReportsMalformed :
    (∀ m ∈ State.reset.cfg.rxMaxLen, ([.bad, .bad, .bad, .bad] : List Symbol).length ≤ m) ∧
    (∀ m ∈ (limited 5).cfg.rxMaxLen, ([.bad, .bad, .bad, .bad, .bad] : List Symbol).length ≤ m) ∧
    ([.bad, .bad, .bad, .bad] : List Symbol).length < 5 ∧
    5 ≤ ([.bad, .bad, .bad, .bad, .bad] : List Symbol).length ∧
    Symbol.bad ∈ ([.bad, .bad, .bad, .bad, .bad] : List Symbol) ∧
    Symbol.bad ∉ wire (sampleTail.bytes 0x83#8) := by decide

theorem witness_DecodeRunsItsBranch : 3 ≤ sampleTail.tail.length := by decide

theorem witness_DecodeReportsHeader :
    5 ≤ (sampleTail.bytes 0x83#8).length ∧
    ∀ m ∈ (limited 5).cfg.rxMaxLen, (sampleTail.bytes 0x83#8).length ≤ m := by decide

/-- A read response, an exception and an unknown code, each of 5 bytes. -/
theorem witness_DecodeStartAddress :
    5 ≤ (sampleTail.bytes 0x04#8).length ∧
    (∀ m ∈ (limited 5).cfg.rxMaxLen, (sampleTail.bytes 0x04#8).length ≤ m) ∧
    byteAt (sampleTail.bytes 0x04#8) 1 ∈ [0x01#8, 0x02#8, 0x03#8, 0x04#8] ∧
    byteAt (sampleTail.bytes 0x83#8) 1 ∉ supportedCodes ∧
    byteAt (sampleTail.bytes 0x07#8) 1 ∉ supportedCodes := by decide

/-- The shortest frame, without a limit and at one. -/
theorem frameFits_each_way : FrameFits State.reset.cfg sampleTail ∧ FrameFits (limited 5).cfg sampleTail := by
  unfold FrameFits; decide

theorem witness_DecodeExceptionResponse : FrameFits State.reset.cfg sampleTail := frameFits_each_way.1

theorem witness_ExceptionCodeTable : 0x0C ≤ (0x0C#8).toNat ∧ 0x0C ≤ (0xFF#8).toNat := by decide

/-- Both forms of the entry, and a byte count beyond, at and below the data present. -/
theorem witness_DecodeReadBits :
    FrameFits (knows .rc 5#16).cfg sampleTail ∧ (knows .rc 5#16).T.rc = .known 5#16 ∧
    FrameFits State.reset.cfg ⟨0x01#8, [0x01#8, 0x15#8, 0x90#8, 0x47#8], .response⟩ ∧
    State.reset.T.rc = .unknown := by
  unfold FrameFits; decide

theorem witness_DecodeReadRegisters :
    FrameFits State.reset.cfg ⟨0x01#8, [0x02#8, 0x00#8, 0x0A#8, 0x39#8, 0x37#8], .response⟩ := by
  unfold FrameFits; decide

/-- Frames of 5, 6, 7 and 8 bytes: the echo fields' boundaries. -/
theorem echo_lengths :
    FrameFits State.reset.cfg ⟨0x01#8, [0x00#8, 0x23#8, 0x50#8], .response⟩ ∧
    FrameFits State.reset.cfg ⟨0x01#8, [0x00#8, 0xAC#8, 0x11#8, 0xA4#8], .response⟩ ∧
    FrameFits State.reset.cfg ⟨0x01#8, [0x00#8, 0xAC#8, 0xFF#8, 0x24#8, 0x4C#8], .response⟩ ∧
    FrameFits State.reset.cfg
      ⟨0x01#8, [0x00#8, 0xAC#8, 0xFF#8, 0x00#8, 0x4C#8, 0x1B#8], .response⟩ := by
  unfold FrameFits; decide

theorem witness_DecodeWriteSingleCoil :
    FrameFits State.reset.cfg ⟨0x01#8, [0x00#8, 0xAC#8, 0xFF#8, 0x24#8, 0x4C#8], .response⟩ :=
  echo_lengths.2.2.1

theorem witness_DecodeWriteSingleRegister :
    FrameFits State.reset.cfg ⟨0x01#8, [0x00#8, 0xAC#8, 0x11#8, 0xA4#8], .response⟩ :=
  echo_lengths.2.1

theorem witness_DecodeWriteMultiple :
    FrameFits State.reset.cfg ⟨0x01#8, [0x00#8, 0x23#8, 0x50#8], .response⟩ := echo_lengths.1

theorem witness_DecodeUnknownCode :
    FrameFits State.reset.cfg sampleTail ∧ (0x07#7).setWidth 8 ∉ supportedCodes ∧
    (0x7F#7).setWidth 8 ∉ supportedCodes := by
  unfold FrameFits; decide

theorem witness_BadCrcKeepsValues :
    3 ≤ ([0x01#8, 0x83#8, 0x02#8] : ByteSeq).length ∧
    ∀ m ∈ (limited 5).cfg.rxMaxLen, ([0x01#8, 0x83#8, 0x02#8] : ByteSeq).length + 2 ≤ m := by
  decide

/-- A `DECODE` that completes, and another state with the same parameters and the entry read. -/
theorem witness_DecodeDependsOnOwnEntryOnly :
    (∃ t, exec (.decode (wire [0x01#8, 0x01#8, 0x01#8, 0x15#8, 0x90#8, 0x47#8]) .response none)
      (knows .rc 5#16) = .next t) ∧
    (((knows .rc 5#16).record .rhr 9#16).setAcc 0#16).cfg = (knows .rc 5#16).cfg ∧
    (((knows .rc 5#16).record .rhr 9#16).setAcc 0#16).T.rc = (knows .rc 5#16).T.rc :=
  ⟨⟨_, rfl⟩, rfl, rfl⟩

theorem witness_LongInputIsRefused :
    inputLength (.decException 0x03#7 sampleTail) = some 5 ∧
    inputLength (.decode [.bad, .bad, .bad, .bad, .bad, .bad] .response none) = some 6 ∧
    (limited 4).cfg.rxMaxLen = some 4 ∧ (limited 5).cfg.rxMaxLen = some 5 ∧ 4 < 5 ∧ 5 < 6 := by
  decide

/-- Both error outcomes. -/
theorem witness_ErrorOutcomeChangesNoState :
    (∃ t, exec (.encodeOther 0x07#8 (lowDesc .rc)) State.reset = .next t ∧
      t.result = .invalidRequest .function) ∧
    ∃ t, exec (.decode [] .response none) State.reset = .next t ∧
      t.result = .malformedFrame .short :=
  ⟨⟨_, rfl, rfl⟩, _, rfl, rfl⟩

/-- Both ways to change an entry. -/
theorem witness_OnlyEncodeOrResetWritesTracker :
    (∃ t, exec .reset (knows .rc 5#16) = .next t ∧ t.T.get .rc ≠ (knows .rc 5#16).T.get .rc) ∧
    (Instr.encodeRc (lowDesc .rc)).wellFormed = true ∧
    ∃ t, exec (.encodeRc (lowDesc .rc)) State.reset = .next t ∧
      t.T.get .rc ≠ State.reset.T.get .rc :=
  ⟨⟨_, rfl, by decide⟩, rfl, _, rfl, by decide +kernel⟩

theorem witness_OnlyStreamingOpsWriteAcc :
    (∃ t, exec (.crcUpdate 0x01#8) State.reset = .next t ∧ t.ACC ≠ State.reset.ACC) ∧
    ∃ t, exec (.encodeRhr (lowDesc .rhr)) State.reset = .next t :=
  ⟨⟨_, rfl, by decide +kernel⟩, _, rfl⟩

theorem witness_OnlyAcceptedEncodeEmits :
    ∃ t, exec (.encodeRhr (lowDesc .rhr)) State.reset = .next t ∧ t.emitted.length = 1 :=
  ⟨_, rfl, by decide +kernel⟩

theorem witness_NoOperationWritesParameters : ∃ t, exec .reset State.reset = .next t := ⟨_, rfl⟩

/-- An input that just fits. -/
theorem witness_EveryOperationCompletes :
    ∀ n m, inputLength (.decException 0x03#7 sampleTail) = some n →
      (limited 5).cfg.rxMaxLen = some m → n ≤ m := by
  intro n m hn hm; cases hn; cases hm; decide

theorem witness_StepRunsDecodedInstruction :
    (issued [encode .crcRead]).pending = encode .crcRead :: [] ∧
    decode (encode .crcRead) = .ok .crcRead ∧ State.reset.pending = [] := ⟨rfl, rfl, rfl⟩

/-- Each clause at the ends of its ranges. -/
theorem witness_MeaninglessWordsAreRefused :
    (0x000#12).toNat / 256 = 0 ∧ (0x0FF#12).toNat / 256 = 0 ∧ 8 ≤ (0x800#12).toNat / 256 ∧
    (0xEFF#12).toNat / 256 ≤ 14 ∧
    ((0x101#12).toNat / 256 ∈ [1, 2, 4, 6, 15] ∧ (0x101#12).toNat % 256 ≠ 0) ∧
    ((0xFFF#12).toNat / 256 ∈ [1, 2, 4, 6, 15] ∧ (0xFFF#12).toNat % 256 ≠ 0) ∧
    (0x300#12).toNat / 256 ∈ [3, 5, 7] ∧ (0x7FF#12).toNat / 256 ∈ [3, 5, 7] ∧
    ((0xF00#12).toNat / 256 ∈ [1, 2, 4, 6, 15] ∧ (0xF00#12).toNat % 256 = 0) := by decide

theorem witness_DecodeOfEncodeIsIdentity :
    (Instr.decUnknown 0x00#7 sampleTail).wellFormed = true ∧
    (Instr.encodeOther 0xFF#8 someDesc).wellFormed = true ∧
    ∀ input dir rs, Instr.decUnknown 0x00#7 sampleTail ≠ .decode input dir rs :=
  ⟨by decide, by decide, fun _ _ _ h => nomatch h⟩

theorem witness_DecodedWordIsUnique :
    decode ⟨0x7FF#12, Operands.zero⟩ = .ok (.lookup 0xFF#8) := rfl

theorem reset_inv : State.reset.Inv := by
  have hk : ∀ k, EntryOk State.reset.cfg k (State.reset.T.get k) := by
    intro k; cases k <;> trivial
  have he : ∀ f ∈ State.reset.emitted, FrameOk f := by
    intro f hf; cases hf
  exact ⟨default_wf, hk, he, trivial⟩

/-- The invariant where an operation is pending, and the step that runs it. -/
theorem witness_StepKeepsInvariant :
    (issued [encode (.encodeRhr (lowDesc .rhr))]).Inv ∧
    ∃ t, step (issued [encode (.encodeRhr (lowDesc .rhr))]) = .next t :=
  ⟨reset_inv, _, rfl⟩

/-- The least and the largest parameters. -/
theorem witness_PowerOnHasInvariant :
    Config.wf ⟨1, 1, 1, 1, 1, 1, some 5⟩ ∧
    Config.wf ⟨65535, 65535, 65535, 65535, 2040, 127, none⟩ := by
  refine ⟨⟨by decide, by decide, by decide, by decide, by decide, by decide, ?_⟩,
    ⟨by decide, by decide, by decide, by decide, by decide, by decide, ?_⟩⟩
  · intro n hn; cases hn; decide
  · intro n hn; cases hn

/-- One operation between: a failing `ENCODE` of the same function. -/
def midOp : Request := encode (.encodeRc { lowDesc .rc with quantity := 0#16 })

theorem witness_LastEncodeWins :
    (∀ q ∈ [midOp], decode q ≠ .ok .reset ∧
      ∀ d, decode q = .ok (encodeInstr .rc d) → ¬ Accepted State.reset.cfg .rc d) ∧
    decode (encode (.encodeRc (lowDesc .rc))) = .ok (encodeInstr .rc (lowDesc .rc)) ∧
    Accepted State.reset.cfg .rc (lowDesc .rc) ∧
    ∃ t, runSteps ([midOp].length + 1)
      (issued (encode (.encodeRc (lowDesc .rc)) :: ([midOp] ++ []))) = .next t := by
  refine ⟨?_, rfl, accepted_low _, _, rfl⟩
  intro q hq
  simp only [List.mem_cons, List.not_mem_nil, or_false] at hq
  subst hq
  refine ⟨fun h => (nomatch h), fun d hd ha => ?_⟩
  cases hd
  exact absurd ha.2.1.1 (by decide)

theorem witness_ReceiverCannotDisturbSender :
    Interleaves [encode (.encodeRc (lowDesc .rc))] [encode (.lookup 0x01#8)]
      [encode (.lookup 0x01#8), encode (.encodeRc (lowDesc .rc))] ∧
    (∃ i, decode (encode (.lookup 0x01#8)) = .ok i ∧ receiverOp i = true) ∧
    ∃ t, runSteps 2 { State.reset with
      pending := [encode (.lookup 0x01#8), encode (.encodeRc (lowDesc .rc))] } = .next t :=
  ⟨.right (.left .nil), ⟨_, rfl, rfl⟩, _, rfl⟩

theorem witness_ReadBitsRoundTrip :
    Accepted (limited 6).cfg .rc ⟨1#8, 0#16, 5#16, .none⟩ ∧
    (∀ m ∈ (limited 6).cfg.rxMaxLen, (1#8).toNat + 5 ≤ m) ∧
    (5#16).toNat = [true, false, true, false, true].length ∧
    (1#8).toNat = ([true, false, true, false, true].length + 7) / 8 ∧
    ∃ t, exec (encodeInstr .rc ⟨1#8, 0#16, 5#16, .none⟩) (limited 6) = .next t :=
  ⟨⟨by decide, by decide, trivial⟩, by decide, rfl, rfl, _, rfl⟩

theorem witness_ReadRegistersRoundTrip :
    (∀ m ∈ (limited 5).cfg.rxMaxLen, (0#8).toNat + 5 ≤ m) ∧
    (0#8).toNat = 2 * ([] : List U16).length ∧
    (254#8).toNat = 2 * (List.replicate 127 0xFFFF#16).length :=
  ⟨by decide, rfl, by rw [List.length_replicate]; rfl⟩

theorem witness_WriteEchoRoundTrip :
    Accepted State.reset.cfg .wsc (lowDesc .wsc) ∧ Accepted State.reset.cfg .wsr (lowDesc .wsr) ∧
    Accepted State.reset.cfg .wmr (lowDesc .wmr) ∧
    (∀ m ∈ State.reset.cfg.rxMaxLen, 8 ≤ m) ∧ (∀ m ∈ (limited 8).cfg.rxMaxLen, 8 ≤ m) ∧
    (lowDesc .wsc).values = .coils [true] ∧ (lowDesc .wsr).values = .regs [3#16] ∧
    (∃ t f, exec (encodeInstr .wsc (lowDesc .wsc)) State.reset = .next t ∧ t.result = .frame f) ∧
    ∃ t f, exec (encodeInstr .wmr (lowDesc .wmr)) State.reset = .next t ∧ t.result = .frame f :=
  ⟨accepted_low _, accepted_low _, accepted_low _, by decide, by decide, rfl, rfl,
    ⟨_, _, exec_encodeInstr_accepted rfl, rfl⟩, _, _, exec_encodeInstr_accepted rfl, rfl⟩

end Sys2Proof.Tests
end

/-! The byte-order helpers as arithmetic (00_scope.md rule R12). -/

namespace Sys2Proof.Machine

@[simp] theorem hi8_toNat (v : U16) : (hi8 v).toNat = v.toNat / 256 := by
  have hv : v.toNat / 256 < 256 := by omega
  simp [hi8, Nat.shiftRight_eq_div_pow, Nat.mod_eq_of_lt hv]

@[simp] theorem lo8_toNat (v : U16) : (lo8 v).toNat = v.toNat % 256 := by
  simp [lo8]

theorem be16_eq_append (h l : U8) : be16 h l = h ++ l := by
  rw [be16, BitVec.append_def, BitVec.shiftLeftZeroExtend_eq, BitVec.setWidth'_eq]

@[simp] theorem be16_toNat (h l : U8) : (be16 h l).toNat = 256 * h.toNat + l.toNat := by
  rw [be16_eq_append, BitVec.toNat_append, ← Nat.shiftLeft_add_eq_or_of_lt l.isLt,
    Nat.shiftLeft_eq]
  omega

@[simp] theorem be16_hi8_lo8 (v : U16) : be16 (hi8 v) (lo8 v) = v := by
  apply BitVec.eq_of_toNat_eq
  rw [be16_toNat, hi8_toNat, lo8_toNat, Nat.div_add_mod]

/-! The bit loop of the CRC (40_crc.md rule R101). -/

theorem crcShift_of_even {a : U16} (h : a.getLsbD 0 = false) : crcShift a = a >>> 1 := by
  rw [crcShift, h]; rfl

theorem crcShift_of_odd {a : U16} (h : a.getLsbD 0 = true) :
    crcShift a = (a >>> 1) ^^^ 0xA001#16 := by
  rw [crcShift, h]; rfl

theorem xor_xor_xor_cancel (x y p : U16) : (x ^^^ p) ^^^ (y ^^^ p) = x ^^^ y := by
  rw [BitVec.xor_comm y p, BitVec.xor_assoc, ← BitVec.xor_assoc p, BitVec.xor_self,
    BitVec.zero_xor]

/-- The polynomial enters once for each odd operand, so for two of them it cancels. -/
theorem crcShift_xor (a b : U16) : crcShift (a ^^^ b) = crcShift a ^^^ crcShift b := by
  have hbit : (a ^^^ b).getLsbD 0 = (a.getLsbD 0 ^^ b.getLsbD 0) := BitVec.getLsbD_xor
  cases ha : a.getLsbD 0 <;> cases hb : b.getLsbD 0 <;> rw [ha, hb] at hbit
  · rw [crcShift_of_even hbit, crcShift_of_even ha, crcShift_of_even hb,
      BitVec.ushiftRight_xor_distrib]
  · rw [crcShift_of_odd hbit, crcShift_of_even ha, crcShift_of_odd hb,
      BitVec.ushiftRight_xor_distrib, BitVec.xor_assoc]
  · rw [crcShift_of_odd hbit, crcShift_of_odd ha, crcShift_of_even hb,
      BitVec.ushiftRight_xor_distrib]
    ac_rfl
  · rw [crcShift_of_even hbit, crcShift_of_odd ha, crcShift_of_odd hb, xor_xor_xor_cancel,
      BitVec.ushiftRight_xor_distrib]

/-- The loop is linear over XOR. -/
theorem crcShifts_xor (n : Nat) (a b : U16) :
    crcShifts n (a ^^^ b) = crcShifts n a ^^^ crcShifts n b := by
  induction n generalizing a b with
  | zero => rfl
  | succ n ih => simp only [crcShifts, crcShift_xor, ih]

/-- While the bits shifted out are 0, the loop only shifts. -/
theorem crcShifts_of_low_bits_zero (n : Nat) (a : U16)
    (h : ∀ i < n, a.getLsbD i = false) : crcShifts n a = a >>> n := by
  induction n generalizing a with
  | zero => simp [crcShifts]
  | succ n ih =>
    have hshift : ∀ i < n, (a >>> 1).getLsbD i = false := fun i hi => by
      simpa [Nat.add_comm] using h (i + 1) (by omega)
    rw [crcShifts, crcShift_of_even (h 0 (by omega)), ih _ hshift, Nat.add_comm n,
      BitVec.shiftRight_add]

/-! The table-driven design (00_scope.md rule R10). -/

/-- The table's entry for an octet is that octet's eight shifts. -/
theorem crcTable_getD (x : U8) :
    crcTable.getD x.toNat 0#16 = crcShifts 8 (x.setWidth 16) := by
  have hx : x.toNat < 256 := x.isLt
  simp [crcTable, hx]

/-- A loop input is its high octet, which only shifts, XOR its low octet, which the table holds. -/
theorem xor_octet_eq_high_xor_low (a : U16) (b : U8) :
    a ^^^ b.setWidth 16 = ((a >>> 8) <<< 8) ^^^ (a.setWidth 8 ^^^ b).setWidth 16 := by
  ext i hi
  by_cases h8 : i < 8
  · simp [h8, hi]
  · have hidx : 8 + (i - 8) = i := by omega
    simp [h8, hi, hidx]

/-- Eight shifts bring the high octet down; its low octet is 0, so no polynomial enters. -/
theorem crcShifts_high_octet (a : U16) : crcShifts 8 ((a >>> 8) <<< 8) = a >>> 8 := by
  rw [crcShifts_of_low_bits_zero 8 _ fun i hi => by simp [hi]]
  ext i hi
  simpa using BitVec.lt_of_getLsbD

theorem crcByteTable_eq_crcByte (a : U16) (b : U8) : crcByteTable a b = crcByte a b := by
  symm
  calc crcByte a b
      = crcShifts 8 (((a >>> 8) <<< 8) ^^^ (a.setWidth 8 ^^^ b).setWidth 16) := by
        rw [crcByte, xor_octet_eq_high_xor_low]
    _ = (a >>> 8) ^^^ crcShifts 8 ((a.setWidth 8 ^^^ b).setWidth 16) := by
        rw [crcShifts_xor, crcShifts_high_octet]
    _ = crcByteTable a b := by rw [crcByteTable, crcTable_getD]

theorem crcFrom_eq_foldl (a : U16) (s : ByteSeq) : crcFrom a s = s.foldl crcByte a := by
  induction s generalizing a with
  | nil => rfl
  | cons b s ih => exact ih (crcByte a b)

theorem crc16Table_eq_crc16 (s : ByteSeq) : crc16Table s = crc16 s := by
  have hstep : crcByteTable = crcByte := funext₂ crcByteTable_eq_crcByte
  rw [crc16Table, hstep, crc16, crcFrom_eq_foldl]

/-! The input limit of the `DECODE` family (00_scope.md rule R9). -/

theorem rxFits_eq_false {c : Config} {n m : Nat} (hm : c.rxMaxLen = some m) (h : m < n) :
    rxFits c n = false := by
  simp [rxFits, hm, h]

theorem State.decodeBy_refused {s : State} {input : List Symbol}
    (h : rxFits s.cfg input.length = false) (g : ByteSeq → DecodedResponse) :
    s.decodeBy input g = .refused .rxTooLong := by
  simp [State.decodeBy, h]

/-- Every instruction of the `DECODE` family is one call of `decodeBy`, on an input of its length. -/
theorem exec_of_inputLength {i : Instr} {n : Nat} (h : inputLength i = some n) (s : State) :
    ∃ input g, exec i s = s.decodeBy input g ∧ input.length = n := by
  cases i with
  | crcCompute | crcInit | crcUpdate | crcRead | encodeRc | encodeRdi | encodeRhr | encodeRir
  | encodeWsc | encodeWsr | encodeWmc | encodeWmr | encodeOther | lookup | reset => cases h
  | decode => cases h; exact ⟨_, _, rfl, rfl⟩
  | decException | decRc | decRdi | decRhr | decRir | decWsc | decWsr | decWmc | decWmr
  | decUnknown => cases h; exact ⟨_, _, rfl, by simp⟩

/-! What a step does with the queue (20_memory.md rule R46). -/

theorem State.advance_of_pending {s : State} {r : Request} {rest : List Request}
    (h : s.pending = r :: rest) : s.advance = { s with pending := rest } := by
  simp [State.advance, h]

theorem step_nil {s : State} (h : s.pending = []) : step s = .next s := by
  simp [step, State.fetch_nil h]

end Sys2Proof.Machine

section
open Sys2Proof Sys2Proof.Machine

/-- Settles O11: the loop is linear over XOR, so the accumulator's high octet only shifts while the
low octet and the byte go through the table; the sequences follow byte by byte. -/
theorem tableCrcEqualsBitwiseCrc : Obligations.TableCrcEqualsBitwiseCrc :=
  ⟨crcByteTable_eq_crcByte, crc16Table_eq_crc16⟩

/-- Settles O36: `be16` is concatenation, and the two octets are quotient and remainder by 256. -/
theorem bigEndianHelpers : Obligations.BigEndianHelpers :=
  ⟨be16_toNat, fun v => ⟨hi8_toNat v, lo8_toNat v, be16_hi8_lo8 v⟩⟩

/-- Settles O39: the whole `DECODE` family is `decodeBy`, which checks the length first. -/
theorem longInputIsRefused : Obligations.LongInputIsRefused := by
  intro i n m s hn hm hlt
  obtain ⟨input, g, hexec, rfl⟩ := exec_of_inputLength hn s
  rw [hexec, State.decodeBy_refused (rxFits_eq_false hm hlt)]

/-- Settles O46, by what `fetch` finds: the first pending request, or nothing. -/
theorem stepRunsDecodedInstruction : Obligations.StepRunsDecodedInstruction := by
  constructor
  · intro s r rest i hp hd
    rw [step_cons hp hd, State.advance_of_pending hp]
  · intro s hp
    exact step_nil hp

end

/-! What the encoder's checks accept and what it then records (41_encoder.md rules R121 to R126). -/

namespace Sys2Proof.Machine

theorem valuesOk_iff_valuesFit (k : FnKey) (q : U16) (v : Values) :
    valuesOk k q v = true ↔ ValuesFit k q v := by
  cases k with
  | rc | rdi | rhr | rir => simp [valuesOk, ValuesFit]
  | wsc | wsr | wmc | wmr => cases v <;> simp [valuesOk, ValuesFit, List.length_eq_one_iff]

theorem checkRequest_eq_none_iff_accepted (c : Config) (k : FnKey) (d : Descriptor) :
    checkRequest c k d = none ↔ Accepted c k d := by
  rw [checkRequest_eq_none_iff, valuesOk_iff_valuesFit]; rfl

/-- The ill-formed `ENCODE.OTHER` of a supported code is no instruction (log entry 10). -/
theorem encodeOther_code_not_wellFormed (k : FnKey) (d : Descriptor) :
    (Instr.encodeOther k.code d).wellFormed = false := by cases k <;> rfl

theorem State.afterEncode_get (s : State) (k : FnKey) (d : Descriptor) :
    (s.afterEncode k d).T.get k = .known d.quantity := Tracker.get_set_self ..

theorem State.afterEncode_get_of_ne (s : State) {k j : FnKey} (d : Descriptor) (h : j ≠ k) :
    (s.afterEncode k d).T.get j = s.T.get j := Tracker.get_set_of_ne _ _ h

/-! What the encoder's frames are (30_encoding.md rules R60, R74; 40_crc.md rules R106, R107). -/

/-- The check reads a frame as a body and its trailer, low octet first. -/
theorem crcOk_append_pair (body : ByteSeq) (lo hi : U8) :
    crcOk (body ++ [lo, hi]) = (crc16 body == be16 hi lo) := by
  simp [crcOk, slice, byteAt]

theorem crcOk_crcAppend (body : ByteSeq) : crcOk (crcAppend body) = true := by
  rw [crcAppend, crcOk_append_pair, be16_hi8_lo8, beq_self_eq_true]

@[simp] theorem byteAt_requestFrame_zero (k : FnKey) (d : Descriptor) :
    byteAt (requestFrame k d) 0 = d.slaveId := rfl

@[simp] theorem byteAt_requestFrame_one (k : FnKey) (d : Descriptor) :
    byteAt (requestFrame k d) 1 = k.code := rfl

/-- Slave id, function code and CRC stand around the payload. -/
theorem payload_length {k : FnKey} {d : Descriptor} (h : ValuesFit k d.quantity d.values) :
    (payload k d).length + 4 = frameLength k d.quantity.toNat := by
  cases k with
  | rc | rdi | rhr | rir => rfl
  | wsc | wsr => rfl
  | wmc =>
    obtain ⟨l, hv, hl⟩ := h
    simp [payload, payloadWmc, frameLength, coilList, hv, hl]; omega
  | wmr =>
    obtain ⟨l, hv, hl⟩ := h
    simp [payload, payloadWmr, frameLength, regList, hv, hl]; omega

theorem requestFrame_length {k : FnKey} {d : Descriptor} (h : ValuesFit k d.quantity d.values) :
    (requestFrame k d).length = frameLength k d.quantity.toNat := by
  rw [← payload_length h]; simp [requestFrame]

/-- The two multiple writes reach the bound where `QMAX` is 2040 coils or 127 registers (00_scope.md
rule R8). -/
theorem frameLength_bounds {c : Config} {k : FnKey} {q : Nat} (hc : c.wf) (hq : q ≤ qmax c k) :
    8 ≤ frameLength k q ∧ frameLength k q ≤ 264 := by
  obtain ⟨-, -, -, -, ⟨-, hwmc⟩, ⟨-, hwmr⟩, -⟩ := hc
  cases k with
  | rc | rdi | rhr | rir | wsc | wsr => simp [frameLength]
  | wmc => simp only [frameLength, qmax] at *; omega
  | wmr => simp only [frameLength, qmax] at *; omega

theorem requestFrame_ok {c : Config} {k : FnKey} {d : Descriptor} (hc : c.wf)
    (h : Accepted c k d) : FrameOk (requestFrame k d) := by
  obtain ⟨⟨hs1, hs2⟩, ⟨-, hq⟩, hv⟩ := h
  obtain ⟨hl1, hl2⟩ := frameLength_bounds hc hq
  rw [← requestFrame_length hv] at hl1 hl2
  exact ⟨hl1, hl2, crcOk_crcAppend _, hs1, hs2, k, fnKey_code k⟩

/-! A decoded response agrees with its raw frame (42_decoder.md rules R152 to R157). -/

/-- With bit 7 clear, masking it off leaves the function code as it is. -/
theorem and_0x7F_of_plain {fb : U8} (h : exceptionBit fb = false) : fb &&& 0x7F#8 = fb := by
  revert fb; decide

theorem fill_plain_ok {s : ByteSeq} (hl : 5 ≤ s.length) (h : exceptionBit (byteAt s 1) = false)
    (dir : Direction) (start : Option U16) (v : DecodedValues) :
    ResultOk (.decoded ((respBase s dir).fill (byteAt s 1) false start v)) :=
  ⟨hl, rfl, (and_0x7F_of_plain h).symm, rfl, h.symm, rfl⟩

theorem respException_ok {s : ByteSeq} (hl : 5 ≤ s.length) (h : exceptionBit (byteAt s 1) = true)
    (dir : Direction) : ResultOk (.decoded (respException s (respBase s dir))) :=
  ⟨hl, rfl, rfl, rfl, h.symm, rfl⟩

/-- Every branch but the exception's keeps byte 1 as the function code. -/
theorem respOf_plain (t : Tracker) {s : ByteSeq} (h : exceptionBit (byteAt s 1) = false)
    (dir : Direction) (rs : Option U16) :
    ∃ start v, respOf t s dir rs = (respBase s dir).fill (byteAt s 1) false start v := by
  cases hk : fnKey? (byteAt s 1) with
  | none => simp only [respOf, h, hk]; exact ⟨_, _, rfl⟩
  | some k =>
    have hb := (fnKey_eq_some_iff _ k).1 hk
    simp only [respOf, h, hk]
    rw [hb]
    cases k <;> exact ⟨_, _, rfl⟩

theorem respOf_ok (t : Tracker) {s : ByteSeq} (hl : 5 ≤ s.length) (dir : Direction)
    (rs : Option U16) : ResultOk (.decoded (respOf t s dir rs)) := by
  cases h : exceptionBit (byteAt s 1) with
  | true => simpa [respOf, h] using respException_ok hl h dir
  | false =>
    obtain ⟨start, v, hr⟩ := respOf_plain t h dir rs
    exact hr ▸ fill_plain_ok hl h dir start v

/-- A `DECODE` returns a good result when its branch does on every frame that is long enough. -/
theorem State.decodeBy_result_ok {s t : State} {input : List Symbol}
    {branch : ByteSeq → DecodedResponse}
    (hb : ∀ b, input = b.map .byte → 5 ≤ b.length → ResultOk (.decoded (branch b)))
    (h : s.decodeBy input branch = .next t) : ResultOk t.result := by
  obtain ⟨-, ⟨c, -, rfl⟩ | ⟨b, hc, rfl⟩⟩ := State.decodeBy_cases h
  · trivial
  · obtain ⟨hi, hl⟩ := checkWellformed_ok hc
    exact hb b hi hl

theorem State.decodeClass_result_ok {s t : State} {fb : U8} {f : RespFrame}
    {branch : ByteSeq → RespBase → DecodedResponse}
    (hb : ∀ b, byteAt b 1 = fb → 5 ≤ b.length →
      ResultOk (.decoded (branch b (respBase b f.direction))))
    (h : s.decodeClass fb f branch = .next t) : ResultOk t.result := by
  refine State.decodeBy_result_ok (fun b hi hl => ?_) h
  have hfb : f.bytes fb = b := List.map_injective_iff.2 (fun _ _ => Symbol.byte.inj) hi
  exact hb b (hfb ▸ byteAt_bytes_one f fb) hl

/-- A dispatch class that is not the exception's: byte 1 has bit 7 clear and is the function code. -/
theorem State.decodeClass_plain_result_ok {s t : State} {fb : U8} {f : RespFrame}
    {branch : ByteSeq → RespBase → DecodedResponse} (hfb : exceptionBit fb = false)
    (hb : ∀ b base, byteAt b 1 = fb → ∃ start v, branch b base = base.fill fb false start v)
    (h : s.decodeClass fb f branch = .next t) : ResultOk t.result := by
  refine State.decodeClass_result_ok (fun b h1 hl => ?_) h
  obtain ⟨start, v, hr⟩ := hb b (respBase b f.direction) h1
  subst h1
  exact hr ▸ fill_plain_ok hl hfb f.direction start v

theorem exceptionBit_setWidth (fc : BitVec 7) : exceptionBit (fc.setWidth 8) = false := by
  revert fc; decide

theorem exceptionBit_or_setWidth (fc : BitVec 7) :
    exceptionBit (0x80#8 ||| fc.setWidth 8) = true := by
  revert fc; decide

/-! The invariant (10_state.md rule R21; 30_encoding.md rules R60, R74; 42_decoder.md rule R154). -/

theorem State.Inv.advance {s : State} (h : s.Inv) : s.advance.Inv := h

theorem EntryOk.ne_known_zero {c : Config} {k : FnKey} {e : Entry} (h : EntryOk c k e) :
    e ≠ .known 0#16 := by
  rintro rfl
  exact absurd h.1 (by decide)

theorem State.Inv.lookup_ok {s : State} (h : s.Inv) (fc : U8) :
    ResultOk (.entry (s.T.lookup fc)) := by
  obtain ⟨-, hT, -, -⟩ := h
  cases hk : fnKey? fc with
  | none => rw [Tracker.lookup_of_not_key _ hk]; exact fun he => nomatch he
  | some k =>
    rw [(fnKey_eq_some_iff fc k).1 hk, Tracker.lookup_code]
    exact (hT k).ne_known_zero

theorem State.encodeKey_result_ok {s : State} (hc : s.cfg.wf) (k : FnKey) (d : Descriptor) :
    ResultOk (s.encodeKey k d).result := by
  obtain ⟨c, -, ht⟩ | ⟨hn, ht⟩ := s.encodeKey_cases k d <;> rw [ht]
  · trivial
  · exact requestFrame_ok hc ((checkRequest_eq_none_iff_accepted _ _ _).1 hn)

theorem State.encodeAny_result_ok {s : State} (hc : s.cfg.wf) (fc : U8) (d : Descriptor) :
    ResultOk (s.encodeAny fc d).result := by
  cases hk : fnKey? fc with
  | none => rw [State.encodeAny_of_not_key hk]; trivial
  | some k =>
    rw [(fnKey_eq_some_iff fc k).1 hk, State.encodeAny_code]
    exact State.encodeKey_result_ok hc k d

/-- Whatever runs from a state with the invariant returns a good result. -/
theorem State.Inv.exec_result_ok {s t : State} {i : Instr} (hs : s.Inv)
    (h : exec i s = .next t) : ResultOk t.result := by
  have hc : s.cfg.wf := hs.1
  cases i with
  | crcCompute | crcInit | crcUpdate | crcRead | reset => cases h; trivial
  | encodeRc d | encodeRdi d | encodeRhr d | encodeRir d | encodeWsc d | encodeWsr d
  | encodeWmc d | encodeWmr d => cases h; exact State.encodeKey_result_ok hc _ d
  | encodeOther fc d => cases h; exact State.encodeAny_result_ok hc fc d
  | lookup fc => cases h; exact hs.lookup_ok fc
  | decode input dir rs =>
    exact State.decodeBy_result_ok (fun _ _ hl => respOf_ok _ hl dir rs) h
  | decException fc f =>
    exact State.decodeClass_result_ok (fun _ h1 hl => respException_ok hl
      (h1 ▸ exceptionBit_or_setWidth fc) f.direction) h
  | decRc f rs | decRdi f rs | decRhr f rs | decRir f rs | decWsc f | decWsr f | decWmc f
  | decWmr f => exact State.decodeClass_plain_result_ok rfl (fun _ _ _ => ⟨_, _, rfl⟩) h
  | decUnknown fc f =>
    exact State.decodeClass_plain_result_ok (exceptionBit_setWidth fc)
      (fun _ _ h1 => h1 ▸ ⟨_, _, rfl⟩) h

/-- Of an operation that records and emits nothing, only the result is to be checked. -/
theorem State.Inv.of_frame {s t : State} (hs : s.Inv) (hcfg : t.cfg = s.cfg)
    (hT : ∀ k, t.T.get k = .unknown ∨ t.T.get k = s.T.get k) (he : t.emitted = s.emitted)
    (hr : ResultOk t.result) : t.Inv := by
  obtain ⟨hc, hk, hf, -⟩ := hs
  refine ⟨hcfg ▸ hc, fun k => ?_, he ▸ hf, hr⟩
  obtain h | h := hT k <;> rw [h]
  · trivial
  · exact hcfg ▸ hk k

theorem State.Inv.afterEncode {s : State} (hs : s.Inv) {k : FnKey} {d : Descriptor}
    (h : Accepted s.cfg k d) : (s.afterEncode k d).Inv := by
  obtain ⟨hc, hT, he, -⟩ := hs
  have hf : FrameOk (requestFrame k d) := requestFrame_ok hc h
  obtain ⟨-, hq, -⟩ := h
  refine ⟨hc, fun j => ?_, fun f hm => ?_, hf⟩
  · by_cases hj : j = k
    · subst hj; rw [State.afterEncode_get]; exact hq
    · rw [State.afterEncode_get_of_ne s d hj]; exact hT j
  · obtain hm | hm := List.mem_append.1 hm
    · exact he f hm
    · exact List.mem_singleton.1 hm ▸ hf

theorem exec_keeps_inv {s t : State} {i : Instr} (hs : s.Inv) (h : exec i s = .next t) :
    t.Inv := by
  have hr : ResultOk t.result := hs.exec_result_ok h
  obtain ⟨r, rfl⟩ | ⟨-, rfl⟩ | ⟨b, -, rfl⟩ | ⟨k, d, -, hn, rfl⟩ | ⟨-, rfl⟩ := exec_next_cases h
  · exact hs.of_frame rfl (fun _ => .inr rfl) rfl hr
  · exact hs.of_frame rfl (fun _ => .inr rfl) rfl hr
  · exact hs.of_frame rfl (fun _ => .inr rfl) rfl hr
  · exact hs.afterEncode ((checkRequest_eq_none_iff_accepted _ _ _).1 hn)
  · exact hs.of_frame rfl (fun k => .inl (Tracker.get_empty k)) rfl hr

/-! The accumulator is the streaming generator's alone (10_state.md rule R26). -/

theorem State.setAcc_encodeKey (s : State) (a : U16) (k : FnKey) (d : Descriptor) :
    (s.setAcc a).encodeKey k d = (s.encodeKey k d).setAcc a := by
  cases h : checkRequest s.cfg k d with
  | none => rw [State.encodeKey_accepted h, State.encodeKey_accepted (s := s.setAcc a) h]; rfl
  | some c => rw [State.encodeKey_rejected h, State.encodeKey_rejected (s := s.setAcc a) h]; rfl

theorem State.setAcc_encodeAny (s : State) (a : U16) (fc : U8) (d : Descriptor) :
    (s.setAcc a).encodeAny fc d = (s.encodeAny fc d).setAcc a := by
  cases hk : fnKey? fc with
  | none => rw [State.encodeAny_of_not_key hk, State.encodeAny_of_not_key hk]; rfl
  | some k =>
    rw [(fnKey_eq_some_iff fc k).1 hk, State.encodeAny_code, State.encodeAny_code,
      State.setAcc_encodeKey]

theorem State.setAcc_decodeBy {s t : State} {input : List Symbol}
    {branch : ByteSeq → DecodedResponse} (a : U16) (h : s.decodeBy input branch = .next t) :
    (s.setAcc a).decodeBy input branch = .next (t.setAcc a) := by
  obtain ⟨hr, ⟨c, hc, rfl⟩ | ⟨b, hc, rfl⟩⟩ := State.decodeBy_cases h
  · simp [State.decodeBy, hr, hc]; rfl
  · simp [State.decodeBy, hr, hc]; rfl

/-- An operation that is not the streaming generator's, nor `RESET`, commutes with writing `ACC`. -/
theorem exec_setAcc {i : Instr} {s t : State} (a : U16) (h : exec i s = .next t)
    (hinit : i ≠ .crcInit) (hupd : ∀ b, i ≠ .crcUpdate b) (hread : i ≠ .crcRead)
    (hreset : i ≠ .reset) : exec i (s.setAcc a) = .next (t.setAcc a) := by
  cases i with
  | crcInit => exact absurd rfl hinit
  | crcUpdate b => exact absurd rfl (hupd b)
  | crcRead => exact absurd rfl hread
  | reset => exact absurd rfl hreset
  | crcCompute | lookup => cases h; rfl
  | encodeRc d | encodeRdi d | encodeRhr d | encodeRir d | encodeWsc d | encodeWsr d
  | encodeWmc d | encodeWmr d => cases h; exact congrArg _ (State.setAcc_encodeKey s a _ d)
  | encodeOther fc d => cases h; exact congrArg _ (State.setAcc_encodeAny s a fc d)
  | decode | decException | decRc | decRdi | decRhr | decRir | decWsc | decWsr | decWmc | decWmr
  | decUnknown => exact State.setAcc_decodeBy a h

end Sys2Proof.Machine

section
open Sys2Proof Sys2Proof.Machine

/-- Settles O52: a step runs one instruction on the rest of the queue, and an instruction keeps the
invariant: a new record and a new frame come from an accepted request, and every result is good. -/
theorem stepKeepsInvariant : Obligations.StepKeepsInvariant := by
  intro s t hs h
  obtain ⟨-, rfl⟩ | ⟨r, rest, i, -, -, hexec⟩ := step_next_cases h
  · exact hs
  · exact exec_keeps_inv hs.advance hexec

/-- Settles O41, by what an instruction can do: only an accepted `ENCODE` and `RESET` write `T`, and
`ENCODE` writes its own entry alone. -/
theorem onlyEncodeOrResetWritesTracker : Obligations.OnlyEncodeOrResetWritesTracker := by
  constructor
  · intro k d s ha
    have hn := (checkRequest_eq_none_iff_accepted _ _ _).2 ha
    exact ⟨_, exec_encodeInstr_accepted hn, s.afterEncode_get k d⟩
  · intro i s t k hwf h hne
    obtain ⟨r, rfl⟩ | ⟨-, rfl⟩ | ⟨b, -, rfl⟩ | ⟨j, d, hi, hn, rfl⟩ | ⟨hi, rfl⟩ :=
      exec_next_cases h
    · exact absurd rfl hne
    · exact absurd rfl hne
    · exact absurd rfl hne
    · have hk : k = j := by_contra fun hkj => hne (s.afterEncode_get_of_ne d hkj)
      subst hk
      obtain rfl | rfl := hi
      · exact .inr ⟨d, rfl, (checkRequest_eq_none_iff_accepted _ _ _).1 hn, s.afterEncode_get k d⟩
      · exact absurd hwf (by simp [encodeOther_code_not_wellFormed])
    · exact .inl ⟨hi, Tracker.get_empty k⟩

/-- Settles O42: the writers by what an instruction can do, the independence because every other
operation commutes with writing `ACC`. -/
theorem onlyStreamingOpsWriteAcc : Obligations.OnlyStreamingOpsWriteAcc := by
  constructor
  · intro i s t h hne
    obtain ⟨r, rfl⟩ | ⟨hi, -⟩ | ⟨b, hi, -⟩ | ⟨k, d, -, -, rfl⟩ | ⟨hi, -⟩ := exec_next_cases h
    · exact absurd rfl hne
    · exact .inl hi
    · exact .inr (.inl ⟨b, hi⟩)
    · exact absurd rfl hne
    · exact .inr (.inr hi)
  · intro i s t a h hinit hupd hread hreset
    exact exec_setAcc a h hinit hupd hread hreset

/-- Settles O44: none of the things an instruction can do writes `cfg` or `pending`. -/
theorem noOperationWritesParameters : Obligations.NoOperationWritesParameters := by
  intro i s t h
  obtain ⟨r, rfl⟩ | ⟨-, rfl⟩ | ⟨b, -, rfl⟩ | ⟨k, d, -, -, rfl⟩ | ⟨-, rfl⟩ := exec_next_cases h <;>
    exact ⟨rfl, rfl⟩

/-- Settles O1: the empty tracker has every entry `unknown`, and `RESET` writes it and 0xFFFF. -/
theorem powerOnHoldsResetValues : Obligations.PowerOnHoldsResetValues := by
  intro c
  refine ⟨Tracker.get_empty, rfl, fun s t h => ?_⟩
  cases h
  exact ⟨rfl, rfl⟩

end

/-! Packed bits and the data region of a read response (20_memory.md rule R43; 42_decoder.md rule
R152). -/

namespace Sys2Proof.Machine

/-- Setting bits 0 to `n - 1` of an octet one after the other, bit `i` when `f i`. -/
theorem foldl_setBit_getLsbD (f : Nat → Bool) (n : Nat) {i : Nat} (hi : i < 8) :
    ((List.range n).foldl (fun d j => if f j then d ||| (1#8 <<< j) else d) 0#8).getLsbD i =
      (decide (i < n) && f i) := by
  induction n with
  | zero => simp
  | succ n ih =>
    have hbit : (1#8 <<< n).getLsbD i = decide (i = n) := by
      simp only [BitVec.getLsbD_shiftLeft, BitVec.getLsbD_one]
      grind
    rw [List.range_succ, List.foldl_append, List.foldl_cons, List.foldl_nil]
    by_cases hf : f n = true
    · rw [if_pos hf, BitVec.getLsbD_or, ih, hbit]
      grind
    · rw [if_neg hf, ih]
      grind

/-- Bit `i` of packed byte `j` is coil `8 j + i`. -/
theorem packByte_getLsbD (l : List Bool) (j : Nat) {i : Nat} (hi : i < 8) :
    (packByte l j).getLsbD i = l.getD (8 * j + i) false := by
  rw [packByte, foldl_setBit_getLsbD (fun i => l.getD (8 * j + i) false) 8 hi, decide_eq_true hi,
    Bool.true_and]

theorem byteAt_packBits {l : List Bool} {j : Nat} (hj : j < (l.length + 7) / 8) :
    byteAt (packBits l) j = packByte l j := by
  simp [byteAt, packBits, hj]

/-- Unpacking undoes packing: element `m` is bit `m % 8` of byte `m / 8` both ways. -/
theorem unpackBits_packBits (l : List Bool) : unpackBits (packBits l) l.length = l := by
  refine List.ext_getElem (unpackBits_length ..) fun m _ hm => ?_
  have hbyte : m / 8 < (l.length + 7) / 8 := by omega
  have hbit : m % 8 < 8 := by omega
  simp [unpackBits, byteAt_packBits hbyte, packByte_getLsbD l _ hbit, Nat.div_add_mod, hm]

/-- The data region of a sealed read response whose byte count is its data's length is the data. -/
theorem dataRegion_crcAppend {sid fb n : U8} {data : ByteSeq} (hn : n.toNat = data.length) :
    dataRegion (crcAppend (sid :: fb :: n :: data)) = data := by
  simp [dataRegion, slice, byteAt, crcAppend, hn, Nat.add_comm 3]

theorem rxFits_of_le {c : Config} {n : Nat} (h : ∀ m ∈ c.rxMaxLen, n ≤ m) : rxFits c n = true := by
  cases hm : c.rxMaxLen with
  | none => simp [rxFits, hm]
  | some m => simpa [rxFits, hm] using h m hm

/-- A known quantity within the bits present is the number of meaningful bits (42_decoder.md rule
R159). -/
theorem bitCount_known {q : U16} {avail : Nat} (h : q.toNat ≤ 8 * avail) :
    bitCount (.known q) avail = q.toNat := Nat.min_eq_left h

/-- The two read-bits codes are dispatched to `DEC_BITS`. -/
theorem respOf_readBits {k : FnKey} (hk : k = .rc ∨ k = .rdi) (t : Tracker) {b : ByteSeq}
    (h1 : byteAt b 1 = k.code) (dir : Direction) (rs : Option U16) :
    respOf t b dir rs = respBits t b (respBase b dir) rs k := by
  rw [respOf, h1]
  obtain rfl | rfl := hk <;> rfl

end Sys2Proof.Machine

section
open Sys2Proof Sys2Proof.Machine

/-- Settles O56: the accepted request records its quantity, which is then the number of bits taken from
the data region; the region is the packed list, and unpacking undoes packing. -/
theorem readBitsRoundTrip : Obligations.ReadBitsRoundTrip := by
  intro k d l n dir rs s t hk ha hfit hq hn hexec
  rw [exec_encodeInstr_accepted ((checkRequest_eq_none_iff_accepted _ _ _).2 ha)] at hexec
  cases hexec
  have hlen : (crcAppend (d.slaveId :: k.code :: n :: packBits l)).length = n.toNat + 5 := by
    simp [hn]
  have hrun : exec (.decode ((crcAppend (d.slaveId :: k.code :: n :: packBits l)).map .byte) dir rs)
      (s.afterEncode k d) = _ :=
    State.decodeBy_bytes _ (by omega) (hlen ▸ rxFits_of_le hfit)
  have hbits : d.quantity.toNat ≤ 8 * (packBits l).length := by
    rw [packBits_length]; omega
  refine ⟨_, _, hrun, rfl, ?_⟩
  rw [respOf_readBits hk _ rfl]
  refine ⟨crcOk_crcAppend _, rfl, rfl, rfl, ?_⟩
  have hdata : dataRegion (crcAppend (d.slaveId :: k.code :: n :: packBits l)) = packBits l :=
    dataRegion_crcAppend (by rw [hn, packBits_length])
  simp only [respBits, RespBase.fill]
  rw [hdata, State.afterEncode_get, bitCount_known hbits, hq, unpackBits_packBits]

end

/-! A decoded request is a well-formed instruction (30_encoding.md rules R77, R80). -/

namespace Sys2Proof.Machine

/-- A row that a table selects stands in it, and the word matches it. -/
theorem selectRow_some {ρ : Type} {w : Nat} {table : List (TableRow ρ w)} {x : BitVec w} {row : ρ}
    (h : selectRow table x = some row) : ∃ r ∈ table, r.row = row ∧ r.matches x = true := by
  induction table with
  | nil => cases h
  | cons r table ih =>
    rw [selectRow] at h
    split at h
    · next hm => cases h; exact ⟨r, List.mem_cons_self, rfl, hm⟩
    · obtain ⟨r', hr', hrow⟩ := ih h
      exact ⟨r', List.mem_cons_of_mem r hr', hrow⟩

theorem cmdWord_cmdOp_cmdArg (cmd : BitVec 12) : cmdWord (cmdOp cmd) (cmdArg cmd) = cmd := by
  ext i hi
  by_cases h8 : i < 8
  · simp [cmdWord, cmdOp, cmdArg, h8, hi]
  · have hidx : 8 + (i - 8) = i := by omega
    have h4 : i - 8 < 4 := by omega
    simp [cmdWord, cmdOp, cmdArg, h8, hi, hidx, h4]

theorem cmdOp_of_and_0xF00 {cmd : BitVec 12} (h : cmd &&& 0xF00#12 = 0x500#12) :
    cmdOp cmd = 0x5#4 := by
  have hop : cmdOp (cmd &&& 0xF00#12) = cmdOp cmd &&& cmdOp 0xF00#12 := by
    simp [cmdOp, BitVec.extractLsb'_and]
  have hones : cmdOp 0xF00#12 = BitVec.allOnes 4 := rfl
  rw [h, hones, BitVec.and_allOnes] at hop
  exact hop.symm

theorem cmdTable_encodeOther :
    ∀ r ∈ cmdTable, r.row = .encodeOther → r.pattern = 0x500#12 ∧ r.mask = 0xF00#12 := by decide

/-- `ENCODE.OTHER` is selected for no supported code: that word's own row comes first. -/
theorem fnKey_of_selectRow_encodeOther {cmd : BitVec 12}
    (h : selectRow cmdTable cmd = some .encodeOther) : fnKey? (cmdArg cmd) = none := by
  obtain ⟨r, hr, hrow, hm⟩ := selectRow_some h
  obtain ⟨hpat, hmask⟩ := cmdTable_encodeOther r hr hrow
  have hop : cmdOp cmd = 0x5#4 :=
    cmdOp_of_and_0xF00 (by simpa [TableRow.matches, hpat, hmask] using hm)
  cases hk : fnKey? (cmdArg cmd) with
  | none => rfl
  | some k =>
    rw [← cmdWord_cmdOp_cmdArg cmd, hop, (fnKey_eq_some_iff _ k).1 hk] at h
    cases k <;> cases h

theorem CmdRow.toInstr_wellFormed {cmd : BitVec 12} {row : CmdRow}
    (h : selectRow cmdTable cmd = some row) (o : Operands) :
    (row.toInstr (cmdArg cmd) o).wellFormed = true := by
  cases row with
  | encode k => cases k <;> rfl
  | encodeOther =>
    have hk := (fnKey_eq_none_iff _).1 (fnKey_of_selectRow_encodeOther h)
    simpa [CmdRow.toInstr, Instr.wellFormed] using hk
  | crcCompute | crcInit | crcUpdate | crcRead | decode | lookup | reset => rfl

/-- The unknown class is selected only for a byte 1 with bit 7 clear that is no supported code. -/
theorem supportedCodes_of_selectRow_unknown {fb : U8}
    (h : selectRow frameTable fb = some .unknown) :
    supportedCodes.contains ((fb.setWidth 7).setWidth 8) = false := by
  revert fb; decide

theorem FrameRow.toInstr_wellFormed {fb : U8} {row : FrameRow}
    (h : selectRow frameTable fb = some row) {f : RespFrame} (hf : f.longEnough = true)
    (rs : Option U16) : (row.toInstr fb f rs).wellFormed = true := by
  cases row with
  | exception => exact hf
  | key k => cases k <;> exact hf
  | unknown =>
    have hc := supportedCodes_of_selectRow_unknown h
    simp only [FrameRow.toInstr, Instr.wellFormed, hf, hc, Bool.not_false, Bool.and_self]

theorem dispatchFrame_wellFormed (input : List Symbol) (dir : Direction) (rs : Option U16) :
    (dispatchFrame input dir rs).wellFormed = true := by
  unfold dispatchFrame
  split
  · next sid fb tail hc =>
    obtain ⟨-, hl⟩ := checkWellformed_ok hc
    have hf : (RespFrame.mk sid tail dir).longEnough = true := by
      simpa [RespFrame.longEnough] using hl
    split
    · next row hrow => exact FrameRow.toInstr_wellFormed hrow hf rs
    · rfl
  · rfl
  · rfl

theorem decodeCommand_wellFormed {r : Request} {i : Instr} (h : decodeCommand r = .ok i) :
    i.wellFormed = true := by
  unfold decodeCommand at h
  split at h
  · next row hrow => cases h; exact CmdRow.toInstr_wellFormed hrow r.ops
  · cases h

theorem decode_wellFormed {r : Request} {i : Instr} (h : decode r = .ok i) :
    i.wellFormed = true := by
  unfold decode at h
  split at h
  · cases h; exact dispatchFrame_wellFormed ..
  · next hc => cases h; exact decodeCommand_wellFormed hc
  · cases h

/-! Runs (20_memory.md rule R50). -/

theorem runSteps_succ_of_step {n : Nat} {s u : State} (h : step s = .next u) :
    runSteps (n + 1) s = runSteps n u := by
  have hcore : core.step s = .next u := h
  simp only [runSteps, Host.Core.run, hcore]
  rfl

theorem runSteps_succ_next {n : Nat} {s t : State} (h : runSteps (n + 1) s = .next t) :
    ∃ u, step s = .next u ∧ runSteps n u = .next t := by
  cases hs : step s with
  | next u => exact ⟨u, rfl, (runSteps_succ_of_step hs).symm.trans h⟩
  | fault r => exact nomatch r
  | refused r =>
    have hcore : core.step s = .refused r := hs
    simp [runSteps, Host.Core.run, hcore] at h

/-- A step with an operation pending runs that operation on the rest of the queue. -/
theorem step_next_of_pending {s t : State} {r : Request} {rest : List Request}
    (hp : s.pending = r :: rest) (h : step s = .next t) :
    ∃ i, decode r = .ok i ∧ exec i { s with pending := rest } = .next t := by
  obtain ⟨hnil, -⟩ | ⟨r', rest', i, hp', hd, hexec⟩ := step_next_cases h
  · cases hp.symm.trans hnil
  · cases hp.symm.trans hp'
    exact ⟨i, hd, State.advance_of_pending hp ▸ hexec⟩

/-- The first operation of a run, then the rest of the run with the rest of the queue. -/
theorem runSteps_next_of_pending {n : Nat} {s t : State} {r : Request} {rest : List Request}
    (hp : s.pending = r :: rest) (h : runSteps (n + 1) s = .next t) :
    ∃ i u, decode r = .ok i ∧ exec i { s with pending := rest } = .next u ∧
      u.cfg = s.cfg ∧ u.pending = rest ∧ runSteps n u = .next t := by
  obtain ⟨u, hu, hrun⟩ := runSteps_succ_next h
  obtain ⟨i, hd, hexec⟩ := step_next_of_pending hp hu
  obtain ⟨hcfg, hpend⟩ := noOperationWritesParameters i _ u hexec
  exact ⟨i, u, hd, hexec, hcfg, hpend, hrun⟩

/-- `r` is neither `RESET` nor an `ENCODE` of `k` that parameters `c` accept. -/
def KeepsEntry (c : Config) (k : FnKey) (r : Request) : Prop :=
  decode r ≠ .ok .reset ∧ ∀ d, decode r = .ok (encodeInstr k d) → ¬ Accepted c k d

theorem KeepsEntry.exec_get {k : FnKey} {r : Request} {i : Instr} {s t : State}
    (hr : KeepsEntry s.cfg k r) (hd : decode r = .ok i) (h : exec i s = .next t) :
    t.T.get k = s.T.get k := by
  obtain ⟨hreset, henc⟩ := hr
  by_contra hne
  obtain ⟨-, honly⟩ := onlyEncodeOrResetWritesTracker
  obtain ⟨rfl, -⟩ | ⟨d, rfl, ha, -⟩ := honly i s t k (decode_wellFormed hd) h hne
  · exact hreset hd
  · exact henc d hd ha

theorem runSteps_get_of_keepsEntry {k : FnKey} {mid rest : List Request} {s t : State}
    (hmid : ∀ q ∈ mid, KeepsEntry s.cfg k q) (hp : s.pending = mid ++ rest)
    (h : runSteps mid.length s = .next t) : t.T.get k = s.T.get k := by
  induction mid generalizing s with
  | nil => cases h; rfl
  | cons r mid ih =>
    obtain ⟨hr, hmid⟩ := List.forall_mem_cons.1 hmid
    obtain ⟨i, u, hd, hexec, hcfg, hpend, hrun⟩ := runSteps_next_of_pending hp h
    rw [ih (hcfg ▸ hmid) hpend hrun]
    exact KeepsEntry.exec_get (s := { s with pending := mid ++ rest }) hr hd hexec

end Sys2Proof.Machine

section
open Sys2Proof Sys2Proof.Machine

/-- Settles O54, by induction on the operations between: each keeps the entry, because only an accepted
`ENCODE` of the function and `RESET` write it and a request decodes to well-formed instructions only. -/
theorem lastEncodeWins : Obligations.LastEncodeWins := by
  intro k s t mid rest hmid
  refine ⟨fun hp h => runSteps_get_of_keepsEntry hmid hp h, fun r d hp hd ha h => ?_⟩
  obtain ⟨i, u, hi, hexec, hcfg, hpend, hrun⟩ := runSteps_next_of_pending hp h
  cases hd.symm.trans hi
  obtain ⟨hwrites, -⟩ := onlyEncodeOrResetWritesTracker
  obtain ⟨v, hv, hget⟩ := hwrites k d { s with pending := mid ++ rest } ha
  cases hv.symm.trans hexec
  rw [← hget]
  exact runSteps_get_of_keepsEntry (s := u) (hcfg ▸ hmid) hpend hrun

end

/-! No operation reads the queue or the last result (20_memory.md rules R46, R50). -/

namespace Sys2Proof.Machine

/-- `s` with another queue and another last result. -/
def State.requeue (s : State) (p : List Request) (r : Result) : State :=
  { s with pending := p, result := r }

theorem State.requeue_encodeKey (s : State) (p : List Request) (r : Result) (k : FnKey)
    (d : Descriptor) :
    (s.requeue p r).encodeKey k d = { s.encodeKey k d with pending := p } := by
  cases h : checkRequest s.cfg k d with
  | none => rw [State.encodeKey_accepted h, State.encodeKey_accepted (s := s.requeue p r) h]; rfl
  | some c => rw [State.encodeKey_rejected h, State.encodeKey_rejected (s := s.requeue p r) h]; rfl

theorem State.requeue_encodeAny (s : State) (p : List Request) (r : Result) (fc : U8)
    (d : Descriptor) :
    (s.requeue p r).encodeAny fc d = { s.encodeAny fc d with pending := p } := by
  cases hk : fnKey? fc with
  | none => rw [State.encodeAny_of_not_key hk, State.encodeAny_of_not_key hk]; rfl
  | some k =>
    rw [(fnKey_eq_some_iff fc k).1 hk, State.encodeAny_code, State.encodeAny_code,
      State.requeue_encodeKey]

theorem State.requeue_decodeBy {s t : State} {input : List Symbol}
    {branch : ByteSeq → DecodedResponse} (p : List Request) (r : Result)
    (h : s.decodeBy input branch = .next t) :
    (s.requeue p r).decodeBy input branch = .next { t with pending := p } := by
  obtain ⟨hr, ⟨c, hc, rfl⟩ | ⟨b, hc, rfl⟩⟩ := State.decodeBy_cases h <;>
    simp only [State.decodeBy, State.requeue, hr, hc, if_true] <;> rfl

/-- An operation does the same whatever is queued behind it and whatever the last one returned. -/
theorem exec_requeue {i : Instr} {s t : State} (p : List Request) (r : Result)
    (h : exec i s = .next t) : exec i (s.requeue p r) = .next { t with pending := p } := by
  cases i with
  | crcCompute | crcInit | crcUpdate | crcRead | lookup | reset => cases h; rfl
  | encodeRc d | encodeRdi d | encodeRhr d | encodeRir d | encodeWsc d | encodeWsr d
  | encodeWmc d | encodeWmr d => cases h; exact congrArg _ (State.requeue_encodeKey s p r _ d)
  | encodeOther fc d => cases h; exact congrArg _ (State.requeue_encodeAny s p r fc d)
  | decode | decException | decRc | decRdi | decRhr | decRir | decWsc | decWsr | decWmc | decWmr
  | decUnknown => exact State.requeue_decodeBy p r h

/-- `DECODE` and `LOOKUP` return a result and change nothing else. -/
theorem exec_receiverOp {i : Instr} {s t : State} (hi : receiverOp i = true)
    (h : exec i s = .next t) : ∃ r, t = s.answer r := by
  obtain hr | ⟨rfl, -⟩ | ⟨b, rfl, -⟩ | ⟨k, d, rfl | rfl, -⟩ | ⟨rfl, -⟩ := exec_next_cases h
  · exact hr
  · cases hi
  · cases hi
  · cases k <;> cases hi
  · cases hi
  · cases hi

/-- Without the receiver's operations the run ends in the same state, but for the last result: a
sender's operation runs alike in both, a receiver's one is dropped. -/
theorem runSteps_of_interleaves {sender receiver merged : List Request}
    (hint : Interleaves sender receiver merged)
    (hrec : ∀ q ∈ receiver, ∃ i, decode q = .ok i ∧ receiverOp i = true)
    {s t : State} (r : Result) (hp : s.pending = merged)
    (h : runSteps merged.length s = .next t) :
    ∃ r', runSteps sender.length (s.requeue sender r) = .next (t.answer r') := by
  induction hint generalizing s r with
  | nil =>
    cases h
    have hsame : t.requeue [] r = t.answer r := by rw [← hp]; rfl
    exact ⟨r, congrArg _ hsame⟩
  | @left a x y z hint ih =>
    obtain ⟨i, u, hd, hexec, -, hpend, hrun⟩ := runSteps_next_of_pending hp h
    have hsender := exec_requeue x r hexec
    have hstep : step (s.requeue (a :: x) r) = .next { u with pending := x } :=
      (step_cons rfl hd).trans hsender
    obtain ⟨r', hr'⟩ := ih hrec u.result hpend hrun
    exact ⟨r', (runSteps_succ_of_step hstep).trans hr'⟩
  | @right a x y z hint ih =>
    obtain ⟨⟨i, hd, hi⟩, hrec⟩ := List.forall_mem_cons.1 hrec
    obtain ⟨j, u, hj, hexec, -, hpend, hrun⟩ := runSteps_next_of_pending hp h
    cases hd.symm.trans hj
    obtain ⟨ra, rfl⟩ := exec_receiverOp hi hexec
    obtain ⟨r', hr'⟩ := ih hrec r hpend hrun
    exact ⟨r', hr'⟩

end Sys2Proof.Machine

section
open Sys2Proof Sys2Proof.Machine

/-- Settles O55: a receiver's operations write the last result alone, which no operation reads, so the
sender's run alone ends in the same state but for that result. -/
theorem receiverCannotDisturbSender : Obligations.ReceiverCannotDisturbSender := by
  intro s t sender receiver merged hint hrec h
  obtain ⟨r, hr⟩ := runSteps_of_interleaves hint hrec s.result rfl h
  exact ⟨_, hr, rfl, rfl, rfl, rfl⟩

end

/-! A selected row and its instruction: the decoder's two levels said once, in both directions
(30_encoding.md rules R77, R80). -/

namespace Sys2Proof.Machine

@[simp] theorem cmdArg_cmdWord (op : BitVec 4) (arg : U8) : cmdArg (cmdWord op arg) = arg := by
  ext i hi
  have h12 : i < 12 := by omega
  simp [cmdArg, cmdWord, hi, h12]

theorem decodeCommand_of_selectRow {cmd : BitVec 12} {row : CmdRow}
    (h : selectRow cmdTable cmd = some row) (o : Operands) :
    decodeCommand ⟨cmd, o⟩ = .ok (row.toInstr (cmdArg cmd) o) := by
  simp [decodeCommand, h]

theorem decodeCommand_refused {cmd : BitVec 12} {e : DecodeError}
    (h : selectRow cmdTable cmd = none) (he : rejection cmd = e) (o : Operands) :
    decodeCommand ⟨cmd, o⟩ = .error e := by
  simp [decodeCommand, h, he]

theorem decodeCommand_ok {r : Request} {i : Instr} (h : decodeCommand r = .ok i) :
    ∃ row, selectRow cmdTable r.cmd = some row ∧ i = row.toInstr (cmdArg r.cmd) r.ops := by
  cases hrow : selectRow cmdTable r.cmd with
  | none => cases (decodeCommand_refused hrow rfl r.ops).symm.trans h
  | some row =>
    cases (decodeCommand_of_selectRow hrow r.ops).symm.trans h
    exact ⟨row, rfl, rfl⟩

theorem decode_of_decodeCommand_decode {r : Request} {input : List Symbol} {dir : Direction}
    {rs : Option U16} (h : decodeCommand r = .ok (.decode input dir rs)) :
    decode r = .ok (dispatchFrame input dir rs) := by
  simp [decode, h]

/-- What a request decodes to is its command word's instruction, or the dispatch class of a
`DECODE`. -/
theorem decode_ok_cases {r : Request} {i : Instr} (h : decode r = .ok i) :
    decodeCommand r = .ok i ∨
    ∃ input dir rs, decodeCommand r = .ok (.decode input dir rs) ∧
      i = dispatchFrame input dir rs := by
  unfold decode at h
  split at h
  · next input dir rs hc => cases h; exact .inr ⟨input, dir, rs, hc, rfl⟩
  · next hc => cases h; exact .inl hc
  · cases h

/-- A word whose row is not `DECODE`'s decodes to its row's instruction. -/
theorem decode_cmdWord {op : BitVec 4} {arg : U8} {row : CmdRow}
    (h : selectRow cmdTable (cmdWord op arg) = some row) (hne : row ≠ .decode) (o : Operands) :
    decode ⟨cmdWord op arg, o⟩ = .ok (row.toInstr arg o) := by
  have hc : decodeCommand ⟨cmdWord op arg, o⟩ = .ok (row.toInstr arg o) := by
    rw [decodeCommand_of_selectRow h, cmdArg_cmdWord]
  rw [decode, hc]
  cases row with
  | decode => exact absurd rfl hne
  | encode k => cases k <;> rfl
  | crcCompute | crcInit | crcUpdate | crcRead | encodeOther | lookup | reset => rfl

/-! The row of each encoded word (30_encoding.md rule R80): the rows with an argument byte, then the
dispatch classes. -/

theorem selectRow_crcUpdate (b : U8) :
    selectRow cmdTable (cmdWord 0x3#4 b) = some .crcUpdate := by
  revert b; decide

theorem selectRow_lookup (fc : U8) : selectRow cmdTable (cmdWord 0x7#4 fc) = some .lookup := by
  revert fc; decide

/-- An `ENCODE` word selects its supported function's row, or `ENCODE.OTHER`'s for any other byte. -/
theorem selectRow_encode (fc : U8) :
    selectRow cmdTable (cmdWord 0x5#4 fc) = some ((fnKey? fc).elim .encodeOther .encode) := by
  revert fc; decide

theorem selectRow_key (k : FnKey) : selectRow frameTable k.code = some (.key k) := by
  cases k <;> rfl

theorem selectRow_exception (fc : BitVec 7) :
    selectRow frameTable (0x80#8 ||| fc.setWidth 8) = some .exception := by
  revert fc; decide

theorem selectRow_unknown {fc : BitVec 7} (h : fnKey? (fc.setWidth 8) = none) :
    selectRow frameTable (fc.setWidth 8) = some .unknown := by
  revert fc; decide

/-- The seven low bits of an exception's byte 1 are its function code. -/
theorem setWidth_or_0x80 (fc : BitVec 7) : (0x80#8 ||| fc.setWidth 8).setWidth 7 = fc := by
  revert fc; decide

/-! Decoding an encoded instruction (30_encoding.md rules R77, R80). -/

theorem decode_encodeRequest_code (k : FnKey) (d : Descriptor) :
    decode (encodeRequest k.code d) = .ok (encodeInstr k d) := by
  have hrow : selectRow cmdTable (cmdWord 0x5#4 k.code) = some (.encode k) := by
    rw [selectRow_encode, fnKey_code]; rfl
  exact decode_cmdWord hrow (by simp) _

theorem decode_encodeRequest_other {fc : U8} (h : fnKey? fc = none) (d : Descriptor) :
    decode (encodeRequest fc d) = .ok (.encodeOther fc d) := by
  have hrow : selectRow cmdTable (cmdWord 0x5#4 fc) = some .encodeOther := by
    rw [selectRow_encode, h]; rfl
  exact decode_cmdWord hrow (by simp) _

theorem decodeCommand_decodeRequest (input : List Symbol) (dir : Direction) (rs : Option U16) :
    decodeCommand (decodeRequest input dir rs) = .ok (.decode input dir rs) := by
  have hrow : selectRow cmdTable (cmdWord 0x6#4 0x00#8) = some .decode := by decide
  exact decodeCommand_of_selectRow hrow _

theorem dispatchFrame_bytes {fb : U8} {row : FrameRow} (h : selectRow frameTable fb = some row)
    {f : RespFrame} (hf : f.longEnough = true) (rs : Option U16) :
    dispatchFrame ((f.bytes fb).map .byte) f.direction rs = row.toInstr fb f rs := by
  have hlen : 5 ≤ (f.bytes fb).length := by
    simpa [RespFrame.longEnough] using hf
  rw [dispatchFrame, checkWellformed_bytes hlen]
  simp [RespFrame.bytes, h]

/-- A frame long enough is resolved to the class that its byte 1 selects. -/
theorem decode_frameRequest {fb : U8} {row : FrameRow} (h : selectRow frameTable fb = some row)
    {f : RespFrame} (hf : f.longEnough = true) (rs : Option U16) :
    decode (frameRequest fb f rs) = .ok (row.toInstr fb f rs) := by
  rw [← dispatchFrame_bytes h hf rs]
  exact decode_of_decodeCommand_decode (decodeCommand_decodeRequest ..)

theorem decode_encode {i : Instr} (hwf : i.wellFormed = true)
    (hne : ∀ input dir rs, i ≠ .decode input dir rs) : decode (encode i) = .ok i := by
  cases i with
  | crcCompute bytes => exact decode_cmdWord (row := .crcCompute) (by decide) (by simp) _
  | crcInit => exact decode_cmdWord (row := .crcInit) (by decide) (by simp) _
  | crcRead => exact decode_cmdWord (row := .crcRead) (by decide) (by simp) _
  | reset => exact decode_cmdWord (row := .reset) (by decide) (by simp) _
  | crcUpdate b => exact decode_cmdWord (selectRow_crcUpdate b) (by simp) _
  | lookup fc => exact decode_cmdWord (selectRow_lookup fc) (by simp) _
  | encodeRc d => exact decode_encodeRequest_code .rc d
  | encodeRdi d => exact decode_encodeRequest_code .rdi d
  | encodeRhr d => exact decode_encodeRequest_code .rhr d
  | encodeRir d => exact decode_encodeRequest_code .rir d
  | encodeWsc d => exact decode_encodeRequest_code .wsc d
  | encodeWsr d => exact decode_encodeRequest_code .wsr d
  | encodeWmc d => exact decode_encodeRequest_code .wmc d
  | encodeWmr d => exact decode_encodeRequest_code .wmr d
  | encodeOther fc d =>
    have hk : fnKey? fc = none := (Laws.TableRow.encodeOther fc d).2 hwf
    exact decode_encodeRequest_other hk d
  | decode input dir rs => exact absurd rfl (hne input dir rs)
  | decException fc f =>
    have h := decode_frameRequest (selectRow_exception fc) hwf none
    rwa [FrameRow.toInstr, setWidth_or_0x80] at h
  | decRc f rs => exact decode_frameRequest (selectRow_key .rc) hwf rs
  | decRdi f rs => exact decode_frameRequest (selectRow_key .rdi) hwf rs
  | decRhr f rs => exact decode_frameRequest (selectRow_key .rhr) hwf rs
  | decRir f rs => exact decode_frameRequest (selectRow_key .rir) hwf rs
  | decWsc f => exact decode_frameRequest (selectRow_key .wsc) hwf none
  | decWsr f => exact decode_frameRequest (selectRow_key .wsr) hwf none
  | decWmc f => exact decode_frameRequest (selectRow_key .wmc) hwf none
  | decWmr f => exact decode_frameRequest (selectRow_key .wmr) hwf none
  | decUnknown fc f =>
    have hk : fnKey? (fc.setWidth 8) = none := (Laws.TableRow.decUnknown fc f).2 hwf
    have hf : f.longEnough = true := (Bool.and_eq_true_iff.1 hwf).1
    have h := decode_frameRequest (selectRow_unknown hk) hf none
    simpa [encode, FrameRow.toInstr] using h

/-! Encoding a decoded word (30_encoding.md rule R77). -/

theorem and_0xF00_or_cmdArg (cmd : BitVec 12) :
    (cmd &&& 0xF00#12) ||| (cmdArg cmd).setWidth 12 = cmd := by
  have hop : cmd &&& 0xF00#12 = (cmdOp cmd).setWidth 12 <<< 8 := by
    have hbit : ∀ i, (h : i < 12) → (0xF00#12)[i] = decide (8 ≤ i) := by decide
    ext i hi
    by_cases h8 : i < 8
    · simp [hbit, h8]
    · have hle : 8 ≤ i := by omega
      have hidx : 8 + (i - 8) = i := by omega
      have h4 : i - 8 < 4 := by omega
      simp [hbit, h8, hle, h4, hidx, hi, cmdOp]
  rw [hop]
  exact cmdWord_cmdOp_cmdArg cmd

/-- A row that compares the whole word is the row of one word. -/
def FixesWord (r : TableRow CmdRow 12) : Prop :=
  r.mask = 0xFFF#12 ∧ ∀ arg o, (encode (r.row.toInstr arg o)).cmd = r.pattern

/-- A row that compares the operation code takes the argument byte as an operand. -/
def TakesArg (r : TableRow CmdRow 12) : Prop :=
  r.mask = 0xF00#12 ∧ ∀ arg o, (encode (r.row.toInstr arg o)).cmd = r.pattern ||| arg.setWidth 12

theorem cmdTable_fixesWord_or_takesArg : ∀ r ∈ cmdTable, FixesWord r ∨ TakesArg r := by
  simp only [cmdTable, List.forall_mem_cons]
  exact
    ⟨.inl ⟨rfl, fun _ _ => rfl⟩, .inl ⟨rfl, fun _ _ => rfl⟩,
      .inr ⟨rfl, fun _ _ => rfl⟩, .inl ⟨rfl, fun _ _ => rfl⟩,
      .inl ⟨rfl, fun _ _ => rfl⟩, .inl ⟨rfl, fun _ _ => rfl⟩,
      .inl ⟨rfl, fun _ _ => rfl⟩, .inl ⟨rfl, fun _ _ => rfl⟩,
      .inl ⟨rfl, fun _ _ => rfl⟩, .inl ⟨rfl, fun _ _ => rfl⟩,
      .inl ⟨rfl, fun _ _ => rfl⟩, .inl ⟨rfl, fun _ _ => rfl⟩,
      .inr ⟨rfl, fun _ _ => rfl⟩, .inl ⟨rfl, fun _ _ => rfl⟩,
      .inr ⟨rfl, fun _ _ => rfl⟩, .inl ⟨rfl, fun _ _ => rfl⟩, nofun⟩

theorem encode_toInstr_cmd {cmd : BitVec 12} {row : CmdRow}
    (h : selectRow cmdTable cmd = some row) (o : Operands) :
    (encode (row.toInstr (cmdArg cmd) o)).cmd = cmd := by
  obtain ⟨r, hr, rfl, hm⟩ := selectRow_some h
  have hpat : cmd &&& r.mask = r.pattern := by simpa [TableRow.matches] using hm
  obtain ⟨hmask, hword⟩ | ⟨hmask, hword⟩ := cmdTable_fixesWord_or_takesArg r hr
  · rw [hword, ← hpat, hmask]
    exact BitVec.and_allOnes
  · rw [hword, ← hpat, hmask, and_0xF00_or_cmdArg]

theorem decodeCommand_encode_cmd {r : Request} {i : Instr} (h : decodeCommand r = .ok i) :
    (encode i).cmd = r.cmd := by
  obtain ⟨row, hrow, rfl⟩ := decodeCommand_ok h
  exact encode_toInstr_cmd hrow r.ops

/-- `DECODE` and its dispatch classes have one command word. -/
theorem encode_dispatchFrame_cmd (input : List Symbol) (dir : Direction) (rs : Option U16) :
    (encode (dispatchFrame input dir rs)).cmd = (encode (.decode input dir rs)).cmd := by
  unfold dispatchFrame
  split
  · split
    · next row _ =>
      cases row with
      | exception | unknown => rfl
      | key k => cases k <;> rfl
    · rfl
  · rfl
  · rfl

theorem decode_encode_cmd {r : Request} {i : Instr} (h : decode r = .ok i) :
    (encode i).cmd = r.cmd := by
  obtain hc | ⟨input, dir, rs, hc, rfl⟩ := decode_ok_cases h
  · exact decodeCommand_encode_cmd hc
  · rw [encode_dispatchFrame_cmd, decodeCommand_encode_cmd hc]

end Sys2Proof.Machine

section
open Sys2Proof Sys2Proof.Machine

/-- Settles O50: the encoded word selects its instruction's row, first at the command word and then,
for a dispatch class, at byte 1 of the frame; the operands travel unchanged. -/
theorem decodeOfEncodeIsIdentity : Obligations.DecodeOfEncodeIsIdentity :=
  ⟨fun _ => decode_encode, decodeCommand_decodeRequest⟩

/-- Settles O51: a row fixes the whole word or all but the argument byte, which is an operand; the
dispatch classes keep `DECODE`'s word. -/
theorem decodedWordIsUnique : Obligations.DecodedWordIsUnique := by
  intro r i h
  exact ⟨decode_wellFormed h, decode_encode_cmd h⟩

/-- Settles O49: but for the generic line, an assembler line is the request that encodes its
instruction; the generic line is the `ENCODE` request of its byte. -/
theorem assemblerLinesDecode : Obligations.AssemblerLinesDecode := by
  intro s a q v on cs rg b bs vs input dir start
  refine ⟨decode_encode (i := .crcCompute bs) rfl nofun, decode_encode (i := .crcInit) rfl nofun,
    decode_encode (i := .crcUpdate b) rfl nofun, decode_encode (i := .crcRead) rfl nofun,
    decode_encodeRequest_code .rc _, decode_encodeRequest_code .rdi _,
    decode_encodeRequest_code .rhr _, decode_encodeRequest_code .rir _,
    decode_encodeRequest_code .wsc _, decode_encodeRequest_code .wsr _,
    decode_encodeRequest_code .wmc _, decode_encodeRequest_code .wmr _, ?_,
    decodeCommand_decodeRequest input dir start,
    decode_encode (i := .lookup b) rfl nofun, decode_encode (i := .reset) rfl nofun⟩
  cases hk : fnKey? b with
  | none => exact decode_encodeRequest_other hk _
  | some k =>
    obtain rfl := (fnKey_eq_some_iff b k).1 hk
    exact decode_encodeRequest_code k _

/-- Settles O48: each word selects its row, or none, whatever the operands. -/
theorem sampleWordsDecode : Obligations.SampleWordsDecode := fun o =>
  ⟨decodeCommand_of_selectRow (row := .crcCompute) (by decide) o,
    decodeCommand_of_selectRow (row := .crcUpdate) (by decide) o,
    decodeCommand_of_selectRow (row := .encode .rhr) (by decide) o,
    decodeCommand_of_selectRow (row := .encode .wmr) (by decide) o,
    decodeCommand_of_selectRow (row := .encodeOther) (by decide) o,
    decodeCommand_of_selectRow (row := .decode) (by decide) o,
    decodeCommand_of_selectRow (row := .lookup) (by decide) o,
    decodeCommand_of_selectRow (row := .reset) (by decide) o,
    decodeCommand_refused (by decide) (by decide) o,
    decodeCommand_refused (by decide) (by decide) o⟩

end

/-! Registers on the wire and the echo of a write (30_encoding.md rules R69 to R72; 42_decoder.md rules
R161 to R166). -/

namespace Sys2Proof.Machine

/-- `DECODE` of a whole frame that fits the buffer returns the response of its branch. -/
theorem exec_decode_bytes {s : State} {b : ByteSeq} (hl : 5 ≤ b.length)
    (hfit : ∀ m ∈ s.cfg.rxMaxLen, b.length ≤ m) (dir : Direction) (rs : Option U16) :
    exec (.decode (b.map .byte) dir rs) s = .next (s.answer (.decoded (respOf s.T b dir rs))) :=
  State.decodeBy_bytes _ hl (rxFits_of_le hfit)

theorem regBytes_cons (v : U16) (l : List U16) : regBytes (v :: l) = hi8 v :: lo8 v :: regBytes l :=
  rfl

/-- Register `k` is at octets `2 k` and `2 k + 1`, high octet first (30_encoding.md rule R69). -/
theorem byteAt_regBytes (l : List U16) (k : Nat) :
    byteAt (regBytes l) (2 * k) = hi8 (l.getD k 0#16) ∧
    byteAt (regBytes l) (2 * k + 1) = lo8 (l.getD k 0#16) := by
  induction l generalizing k with
  | nil =>
    have hzero : hi8 0#16 = 0#8 ∧ lo8 0#16 = 0#8 := by decide
    simp [regBytes, byteAt, hzero]
  | cons v l ih =>
    cases k with
    | zero => exact ⟨rfl, rfl⟩
    | succ k => exact ih k

theorem readRegs_regBytes (l : List U16) : readRegs (regBytes l) = l := by
  refine List.ext_getElem (by simp) fun k _ hk => ?_
  obtain ⟨hhi, hlo⟩ := byteAt_regBytes l k
  simp [readRegs, hhi, hlo, hk]

/-- The two read-registers codes are dispatched to `DEC_REGS`. -/
theorem respOf_readRegs {k : FnKey} (hk : k = .rhr ∨ k = .rir) (t : Tracker) {b : ByteSeq}
    (h1 : byteAt b 1 = k.code) (dir : Direction) (rs : Option U16) :
    respOf t b dir rs = respRegs b (respBase b dir) rs k := by
  rw [respOf, h1]
  obtain rfl | rfl := hk <;> rfl

/-- A sealed echo: slave id, function code, an address and a word (30_encoding.md rules R70 to R72). -/
def echoFrame (sid : U8) (k : FnKey) (a w : U16) : ByteSeq :=
  crcAppend (sid :: k.code :: (beBytes a ++ beBytes w))

@[simp] theorem echoFrame_length (sid : U8) (k : FnKey) (a w : U16) :
    (echoFrame sid k a w).length = 8 := rfl

theorem echoField_echoFrame_two (sid : U8) (k : FnKey) (a w : U16) :
    echoField (echoFrame sid k a w) 2 = some a := congrArg some (be16_hi8_lo8 a)

theorem echoField_echoFrame_four (sid : U8) (k : FnKey) (a w : U16) :
    echoField (echoFrame sid k a w) 4 = some w := congrArg some (be16_hi8_lo8 w)

/-- A single coil's request is its own echo, and so is a single register's. -/
theorem requestFrame_wsc {d : Descriptor} {v : Bool} (h : d.values = .coils [v]) :
    requestFrame .wsc d = echoFrame d.slaveId .wsc d.startAddress (coilWord v) := by
  simp [requestFrame, payload, payloadWsc, coilList, echoFrame, h]

theorem requestFrame_wsr {d : Descriptor} {v : U16} (h : d.values = .regs [v]) :
    requestFrame .wsr d = echoFrame d.slaveId .wsr d.startAddress v := by
  simp [requestFrame, payload, payloadWsr, regList, echoFrame, h]

/-- The first six bytes of a multi-write's request, sealed, are its echo. -/
theorem crcAppend_take_requestFrame {k : FnKey} (hk : k = .wmc ∨ k = .wmr) (d : Descriptor) :
    crcAppend ((requestFrame k d).take 6) = echoFrame d.slaveId k d.startAddress d.quantity := by
  obtain rfl | rfl := hk <;> rfl

/-- What a write's echo of the word `w` reports (42_decoder.md rules R163 to R166). -/
def echoValues (k : FnKey) (w : U16) : DecodedValues :=
  match k with
  | .wsc => .coilEcho (some (w == 0xFF00#16)) (some w)
  | .wsr => .regEcho (some w)
  | .wmc => .qtyEcho (some w)
  | .wmr => .qtyEcho (some w)
  | .rc => .empty
  | .rdi => .empty
  | .rhr => .empty
  | .rir => .empty

theorem respOf_echoFrame {k : FnKey} (hk : k = .wsc ∨ k = .wsr ∨ k = .wmc ∨ k = .wmr)
    (t : Tracker) (sid : U8) (a w : U16) (dir : Direction) (rs : Option U16) :
    respOf t (echoFrame sid k a w) dir rs =
      (respBase (echoFrame sid k a w) dir).fill k.code false (some a) (echoValues k w) := by
  have ha := echoField_echoFrame_two sid k a w
  have hw := echoField_echoFrame_four sid k a w
  have h1 : byteAt (echoFrame sid k a w) 1 = k.code := rfl
  rw [respOf, h1]
  obtain rfl | rfl | rfl | rfl := hk
  · change respWsc _ _ = _
    simp [respWsc, ha, hw, echoValues, FnKey.code]
  · change respWsr _ _ = _
    simp [respWsr, ha, hw, echoValues, FnKey.code]
  · change respEchoQ _ _ .wmc = _
    simp [respEchoQ, ha, hw, echoValues]
  · change respEchoQ _ _ .wmr = _
    simp [respEchoQ, ha, hw, echoValues]

theorem exec_decode_echoFrame {k : FnKey} (hk : k = .wsc ∨ k = .wsr ∨ k = .wmc ∨ k = .wmr)
    {s : State} (hfit : ∀ m ∈ s.cfg.rxMaxLen, 8 ≤ m) (sid : U8) (a w : U16) (dir : Direction)
    (rs : Option U16) :
    ∃ r, exec (.decode ((echoFrame sid k a w).map .byte) dir rs) s =
        .next (s.returned (.decoded r)) ∧
      r.crcValid = true ∧ r.slaveId = sid ∧ r.startAddress = some a ∧ r.values = echoValues k w := by
  have hrun := exec_decode_bytes (s := s) (b := echoFrame sid k a w) (by simp) (by simpa using hfit)
    dir rs
  rw [respOf_echoFrame hk] at hrun
  exact ⟨_, hrun, crcOk_crcAppend _, rfl, rfl, rfl⟩

theorem eight_le_frameLength (k : FnKey) (q : Nat) : 8 ≤ frameLength k q := by
  cases k with
  | rc | rdi | rhr | rir | wsc | wsr => exact Nat.le_refl 8
  | wmc | wmr => simp only [frameLength]; omega

end Sys2Proof.Machine

section
open Sys2Proof Sys2Proof.Machine

/-- Settles O57: the sealed response's data region is the register list's octets, and reading them in
pairs undoes writing them. -/
theorem readRegistersRoundTrip : Obligations.ReadRegistersRoundTrip := by
  intro k sid l n dir rs s hk hfit hn
  have hlen : (crcAppend (sid :: k.code :: n :: regBytes l)).length = n.toNat + 5 := by simp [hn]
  have hrun := exec_decode_bytes (s := s) (by omega) (hlen ▸ hfit) dir rs
  have hdata : dataRegion (crcAppend (sid :: k.code :: n :: regBytes l)) = regBytes l :=
    dataRegion_crcAppend (by rw [hn, regBytes_length])
  rw [respOf_readRegs hk _ rfl, respRegs, hdata, readRegs_regBytes] at hrun
  exact ⟨_, _, hrun, rfl, crcOk_crcAppend _, rfl, rfl, rfl⟩

/-- Settles O58: a write's echo carries an address and a word, which the decoder reads back: the coil
word, the register value or the quantity. -/
theorem writeEchoRoundTrip : Obligations.WriteEchoRoundTrip := by
  intro k d dir rs s t f ha hfit hexec hf
  rw [exec_encodeInstr_accepted ((checkRequest_eq_none_iff_accepted _ _ _).2 ha)] at hexec
  cases hexec
  cases hf
  have hecho (w : U16) (hk : k = .wsc ∨ k = .wsr ∨ k = .wmc ∨ k = .wmr) :=
    exec_decode_echoFrame hk (s := s.afterEncode k d) hfit d.slaveId d.startAddress w dir rs
  refine ⟨?_, ?_, fun hk => ?_⟩
  · rintro rfl v hv
    rw [requestFrame_wsc hv]
    cases v <;> exact hecho _ (.inl rfl)
  · rintro rfl v hv
    rw [requestFrame_wsr hv]
    exact hecho v (.inr (.inl rfl))
  · rw [crcAppend_take_requestFrame hk]
    obtain rfl | rfl := hk <;> exact hecho d.quantity (by simp)

/-- Settles O21: an accepted request returns its frame, whose length the values that fit give. -/
theorem encodedFrameLengths : Obligations.EncodedFrameLengths := by
  intro k d s ha
  have hn := (checkRequest_eq_none_iff_accepted _ _ _).2 ha
  obtain ⟨-, -, hv⟩ := ha
  have hlen := requestFrame_length hv
  exact ⟨_, _, exec_encodeInstr_accepted hn, rfl, hlen ▸ eight_le_frameLength k _, hlen⟩

end

/-! The CRC as a fold of injective byte steps (40_crc.md rules R100, R101). -/

namespace Sys2Proof.Machine

theorem crcShifts_eq_iterate (n : Nat) (a : U16) : crcShifts n a = crcShift^[n] a := by
  induction n generalizing a with
  | zero => rfl
  | succ n ih => exact ih (crcShift a)

theorem crcByte_eq_foldl (a : U16) (b : U8) :
    crcByte a b = (List.range 8).foldl (fun a _ => crcShift a) (a ^^^ b.setWidth 16) := by
  rw [crcByte, crcShifts_eq_iterate, List.foldl_const, List.length_range]

/-- A dropped 1 leaves its mark: bit 15 of the polynomial, which the shift itself leaves 0. -/
theorem eq_zero_of_crcShift_eq_zero {x : U16} (h : crcShift x = 0#16) : x = 0#16 := by
  cases h0 : x.getLsbD 0 with
  | true =>
    have h15 := congrArg (BitVec.getLsbD · 15) ((crcShift_of_odd h0).symm.trans h)
    simp at h15
  | false =>
    have hshift : x >>> 1 = 0#16 := (crcShift_of_even h0).symm.trans h
    refine BitVec.eq_of_getLsbD_eq fun i _ => ?_
    cases i with
    | zero => simpa using h0
    | succ i => simpa [Nat.add_comm] using congrArg (BitVec.getLsbD · i) hshift

theorem crcShift_injective : Function.Injective crcShift := by
  intro a b h
  have hzero : crcShift (a ^^^ b) = 0#16 := by rw [crcShift_xor, h, BitVec.xor_self]
  exact BitVec.xor_eq_zero_iff.1 (eq_zero_of_crcShift_eq_zero hzero)

theorem crcShifts_injective (n : Nat) : Function.Injective (crcShifts n) := by
  rw [funext (crcShifts_eq_iterate n)]
  exact crcShift_injective.iterate n

theorem crcByte_left_injective (b : U8) : Function.Injective (crcByte · b) := fun _ _ h =>
  BitVec.xor_left_inj _ |>.1 (crcShifts_injective 8 h)

theorem crcByte_right_injective (a : U16) : Function.Injective (crcByte a) := by
  intro b c h
  have hext : b.setWidth 16 = c.setWidth 16 :=
    BitVec.xor_right_inj _ |>.1 (crcShifts_injective 8 h)
  simpa using congrArg (BitVec.setWidth 8) hext

theorem crcFrom_left_injective (s : ByteSeq) : Function.Injective (crcFrom · s) := by
  induction s with
  | nil => exact fun _ _ h => h
  | cons b s ih => exact fun _ _ h => crcByte_left_injective b (ih h)

/-- One byte changed, the rest kept: the CRC tells the two apart. -/
theorem eq_byteAt_of_crcFrom_set {f : ByteSeq} {a : U16} {i : Nat} {b : U8} (hi : i < f.length)
    (h : crcFrom a (f.set i b) = crcFrom a f) : b = byteAt f i := by
  induction f generalizing a i with
  | nil => cases hi
  | cons x f ih =>
    cases i with
    | zero => exact crcByte_right_injective a (crcFrom_left_injective f h)
    | succ i => exact ih (Nat.lt_of_succ_lt_succ hi) h

/-! The trailer and the residue (40_crc.md rules R106, R107, R109). -/

theorem lo8_eq_setWidth (v : U16) : lo8 v = v.setWidth 8 := by
  apply BitVec.eq_of_toNat_eq
  simp

theorem hi8_eq_shift_setWidth (v : U16) : hi8 v = (v >>> 8).setWidth 8 := by
  apply BitVec.eq_of_toNat_eq
  rw [hi8_toNat, BitVec.toNat_setWidth, BitVec.toNat_ushiftRight, Nat.shiftRight_eq_div_pow]
  omega

@[simp] theorem lo8_be16 (h l : U8) : lo8 (be16 h l) = l := by
  apply BitVec.eq_of_toNat_eq
  rw [lo8_toNat, be16_toNat]
  omega

@[simp] theorem hi8_be16 (h l : U8) : hi8 (be16 h l) = h := by
  apply BitVec.eq_of_toNat_eq
  rw [hi8_toNat, be16_toNat]
  omega

/-- A byte equal to the accumulator's low octet cancels it, and the loop only shifts. -/
theorem crcByte_lo8 (a : U16) : crcByte a (lo8 a) = a >>> 8 := by
  rw [crcByte, xor_octet_eq_high_xor_low, lo8_eq_setWidth, BitVec.xor_self, BitVec.setWidth_zero,
    BitVec.xor_zero, crcShifts_high_octet]

theorem crcFrom_own_octets (a : U16) : crcFrom a [lo8 a, hi8 a] = 0#16 := by
  have hhi : hi8 a = lo8 (a >>> 8) := by rw [hi8_eq_shift_setWidth, lo8_eq_setWidth]
  calc crcFrom a [lo8 a, hi8 a]
      = crcByte (crcByte a (lo8 a)) (hi8 a) := rfl
    _ = a >>> 8 >>> 8 := by rw [crcByte_lo8, hhi, crcByte_lo8]
    _ = 0#16 := by rw [← BitVec.shiftRight_add]; exact BitVec.ushiftRight_eq_zero (Nat.le_refl 16)

/-- Only the accumulator that the two octets spell is brought to 0 by them. -/
theorem crcFrom_pair_eq_zero_iff (a : U16) (lo hi : U8) :
    crcFrom a [lo, hi] = 0#16 ↔ a = be16 hi lo := by
  have hown : crcFrom (be16 hi lo) [lo, hi] = 0#16 := by
    simpa using crcFrom_own_octets (be16 hi lo)
  rw [← hown]
  exact (crcFrom_left_injective [lo, hi]).eq_iff

/-- A frame checks exactly when its CRC, the two CRC bytes included, is 0. -/
theorem crcOk_iff_crc16_eq_zero {f : ByteSeq} (hl : 2 ≤ f.length) :
    crcOk f = true ↔ crc16 f = 0#16 := by
  obtain ⟨lo, hi, htrailer⟩ : ∃ lo hi, f.drop (f.length - 2) = [lo, hi] :=
    List.length_eq_two.1 (by rw [List.length_drop]; omega)
  rw [← List.take_append_drop (f.length - 2) f, htrailer, crcOk_append_pair, beq_iff_eq,
    crc16_append, crcFrom_pair_eq_zero_iff]

/-! The streaming operations' words and their runs (30_encoding.md rule R77; 40_crc.md rules R103, R104;
70_reset_and_hazards.md rule R238). -/

theorem decode_crcUpdate_word (b : U8) (o : Operands) :
    decode ⟨0x300#12 ||| b.setWidth 12, o⟩ = .ok (.crcUpdate b) := by
  have hword : 0x300#12 ||| b.setWidth 12 = cmdWord 0x3#4 b := rfl
  rw [hword]
  exact decode_cmdWord (row := .crcUpdate) (selectRow_crcUpdate b) (by simp) o

theorem exec_crcInit (s : State) :
    exec .crcInit s = .next ((s.setAcc 0xFFFF#16).answer .noValue) := rfl

theorem exec_crcUpdate (b : U8) (s : State) :
    exec (.crcUpdate b) s = .next ((s.setAcc (crcByte s.ACC b)).answer .noValue) := rfl

theorem updateBytes_cons_crcUpdate {r : Request} {b : U8} (hd : decode r = .ok (.crcUpdate b))
    (ops : List Request) : updateBytes (r :: ops) = b :: updateBytes ops := by
  simp [updateBytes, hd]

theorem updateBytes_cons_of_ne {r : Request} {i : Instr} (hd : decode r = .ok i)
    (hi : ∀ b, i ≠ .crcUpdate b) (ops : List Request) :
    updateBytes (r :: ops) = updateBytes ops := by
  cases i with
  | crcUpdate b => exact absurd rfl (hi b)
  | _ => simp [updateBytes, hd]

/-- An operation that neither initialises nor resets `ACC` steps it by the bytes it gives to
`CRC_UPDATE`: one, or none. -/
theorem exec_ACC_eq_crcFrom {r : Request} {i : Instr} {s t : State} (hd : decode r = .ok i)
    (hinit : i ≠ .crcInit) (hreset : i ≠ .reset) (h : exec i s = .next t) (ops : List Request) :
    crcFrom t.ACC (updateBytes ops) = crcFrom s.ACC (updateBytes (r :: ops)) := by
  by_cases hupd : ∃ b, i = .crcUpdate b
  · obtain ⟨b, rfl⟩ := hupd
    cases h
    rw [updateBytes_cons_crcUpdate hd]
    rfl
  · have hacc : t.ACC = s.ACC := by
      by_contra hne
      obtain ⟨hwriters, -⟩ := onlyStreamingOpsWriteAcc
      obtain hi | hi | hi := hwriters i s t h hne
      · exact hinit hi
      · exact hupd hi
      · exact hreset hi
    rw [updateBytes_cons_of_ne hd (not_exists.1 hupd), hacc]

theorem runSteps_ACC_eq_crcFrom {ops rest : List Request} {s t : State}
    (hops : ∀ q ∈ ops, decode q ≠ .ok .crcInit ∧ decode q ≠ .ok .reset)
    (hp : s.pending = ops ++ rest) (h : runSteps ops.length s = .next t) :
    t.ACC = crcFrom s.ACC (updateBytes ops) := by
  induction ops generalizing s with
  | nil => cases h; rfl
  | cons r ops ih =>
    obtain ⟨⟨hinit, hreset⟩, hops⟩ := List.forall_mem_cons.1 hops
    obtain ⟨i, u, hd, hexec, -, hpend, hrun⟩ := runSteps_next_of_pending hp h
    rw [ih hops hpend hrun]
    exact exec_ACC_eq_crcFrom hd (fun hi => hinit (hi ▸ hd)) (fun hi => hreset (hi ▸ hd)) hexec ops

/-- A queue of updates runs to its end. -/
theorem runSteps_crcUpdates {bytes : ByteSeq} {s : State}
    (hp : s.pending = bytes.map fun b => encode (.crcUpdate b)) :
    ∃ t, runSteps bytes.length s = .next t ∧ t.ACC = crcFrom s.ACC bytes := by
  induction bytes generalizing s with
  | nil => exact ⟨s, rfl, rfl⟩
  | cons b bytes ih =>
    have hstep := (step_cons hp (decode_encode rfl nofun)).trans (exec_crcUpdate b s.advance)
    obtain ⟨t, hrun, hacc⟩ := ih (s := (s.advance.setAcc _).answer _) (congrArg List.tail hp)
    exact ⟨t, (runSteps_succ_of_step hstep).trans hrun, hacc⟩

theorem runSteps_crcInit_crcUpdates {bytes : ByteSeq} {s : State}
    (hp : s.pending = encode .crcInit :: bytes.map fun b => encode (.crcUpdate b)) :
    ∃ t, runSteps (bytes.length + 1) s = .next t ∧ t.ACC = crc16 bytes := by
  have hstep := (step_cons hp (decode_encode rfl nofun)).trans (exec_crcInit s.advance)
  obtain ⟨t, hrun, hacc⟩ :=
    runSteps_crcUpdates (s := (s.advance.setAcc _).answer _) (congrArg List.tail hp)
  exact ⟨t, (runSteps_succ_of_step hstep).trans hrun, hacc⟩

end Sys2Proof.Machine

section
open Sys2Proof Sys2Proof.Machine

/-- Settles O5: the byte step is the bit loop folded eight times, and the run of updates is an
induction on the bytes. -/
theorem crcUpdateStepsAcc : Obligations.CrcUpdateStepsAcc := by
  refine ⟨fun b s => ⟨decode_crcUpdate_word b, ?_⟩,
    fun bytes s => runSteps_crcInit_crcUpdates rfl⟩
  rintro a rfl
  rw [exec_crcUpdate, crcByte_eq_foldl]
  rfl

/-- Settles O9: a sealed frame checks, and a frame checks exactly when its CRC is 0. -/
theorem residueIsZero : Obligations.ResidueIsZero :=
  ⟨rfl, fun body => (crcOk_iff_crc16_eq_zero (by simp)).1 (crcOk_crcAppend body),
    by decide +kernel⟩

/-- Settles O10: both frames would have CRC 0, but the byte steps are injective, so two frames that
differ in one byte have different CRCs. -/
theorem singleBitFlipIsDetected : Obligations.SingleBitFlipIsDetected := by
  intro f hl hok i j hi hj
  rw [← Bool.not_eq_true]
  intro hok'
  rw [crcOk_iff_crc16_eq_zero hl] at hok
  rw [crcOk_iff_crc16_eq_zero (by rwa [List.length_set])] at hok'
  have hbyte : byteAt f i ^^^ (1#8 <<< j) = byteAt f i :=
    eq_byteAt_of_crcFrom_set hi (hok'.trans hok.symm)
  have hbit : ∀ j < 8, 1#8 <<< j ≠ 0#8 := by decide
  exact hbit j hj (BitVec.xor_right_inj _ |>.1 (hbyte.trans BitVec.xor_zero.symm))

/-- Settles O12, by induction on the operations: each steps `ACC` by the byte it streams, if any. -/
theorem streamingCrcMatchesCrc16 : Obligations.StreamingCrcMatchesCrc16 := by
  intro s t r ops rest hp hr hops h
  obtain ⟨i, u, hd, hexec, -, hpend, hrun⟩ := runSteps_next_of_pending hp h
  cases hr.symm.trans hd
  cases hexec
  exact runSteps_ACC_eq_crcFrom hops hpend hrun

/-- Settles O3: the operation answers the CRC of its operand and writes nothing else. -/
theorem crcComputeReturnsCrc : Obligations.CrcComputeReturnsCrc := fun _ _ => ⟨rfl, rfl, rfl⟩

/-- Settles O4: the word fixes the operation, which overwrites `ACC` and the last result. -/
theorem crcInitSetsAcc : Obligations.CrcInitSetsAcc :=
  ⟨decode_cmdWord (op := 0x2#4) (arg := 0x00#8) (row := .crcInit) (by decide) (by simp),
    fun s => ⟨_, exec_crcInit s, rfl, rfl⟩⟩

/-- Settles O6: the word fixes the operation, which answers `ACC`; at power-on that is 0xFFFF. -/
theorem crcReadReturnsAcc : Obligations.CrcReadReturnsAcc :=
  ⟨decode_cmdWord (op := 0x4#4) (arg := 0x00#8) (row := .crcRead) (by decide) (by simp),
    fun _ => rfl, fun _ => rfl⟩

/-- Settles O7: the check compares with the trailer's 16-bit value, low octet first. -/
theorem crcOkComparesTrailer : Obligations.CrcOkComparesTrailer := by
  intro body lo hi
  rw [crcOk_append_pair, beq_iff_eq, ← BitVec.toNat_inj, be16_toNat]

/-- Settles O8: the two octets are the low and the shifted-down half of the CRC. -/
theorem sealedFramePassesCheck : Obligations.SealedFramePassesCheck := by
  intro body
  refine ⟨?_, crcOk_crcAppend body⟩
  rw [crcAppend, lo8_eq_setWidth, hi8_eq_shift_setWidth]

end

/-! The checks of `ENCODE`, in their order (41_encoder.md rules R121 to R125; 60_exceptions.md rule
R202). -/

namespace Sys2Proof.Machine

theorem slaveId_out_of_range_iff (d : Descriptor) :
    (d.slaveId < 1#8 ∨ d.slaveId > 247#8) ↔ ¬ SlaveFits d := by
  simp only [BitVec.lt_def, gt_iff_lt, BitVec.toNat_ofNat]
  omega

theorem quantity_out_of_range_iff (c : Config) (k : FnKey) (d : Descriptor) :
    (d.quantity = 0#16 ∨ qmax c k < d.quantity.toNat) ↔ ¬ QuantityFits c k d := by
  rw [← BitVec.toNat_inj, BitVec.toNat_ofNat]
  omega

theorem checkRequest_of_not_slaveFits {d : Descriptor} (h : ¬ SlaveFits d) (c : Config)
    (k : FnKey) : checkRequest c k d = some .slave :=
  if_pos ((slaveId_out_of_range_iff d).2 h)

theorem checkRequest_of_not_quantityFits {c : Config} {k : FnKey} {d : Descriptor}
    (hs : SlaveFits d) (h : ¬ QuantityFits c k d) : checkRequest c k d = some .quantity := by
  have hs' := mt (slaveId_out_of_range_iff d).1 (not_not_intro hs)
  have hq' := (quantity_out_of_range_iff c k d).2 h
  rw [checkRequest, if_neg hs', if_pos hq']

theorem checkRequest_of_not_valuesFit {c : Config} {k : FnKey} {d : Descriptor}
    (hs : SlaveFits d) (hq : QuantityFits c k d) (h : ¬ ValuesFit k d.quantity d.values) :
    checkRequest c k d = some .values := by
  have hs' := mt (slaveId_out_of_range_iff d).1 (not_not_intro hs)
  have hq' := mt (quantity_out_of_range_iff c k d).1 (not_not_intro hq)
  have hv' := Bool.eq_false_of_not_eq_true (mt (valuesOk_iff_valuesFit k _ _).1 h)
  rw [checkRequest, if_neg hs', if_neg hq', if_pos hv']

theorem exec_encodeInstr_rejected {k : FnKey} {d : Descriptor} {s : State} {cause : InvalidCause}
    (h : checkRequest s.cfg k d = some cause) :
    exec (encodeInstr k d) s = .next (s.returned (.invalidRequest cause)) := by
  rw [exec_encodeInstr, State.encodeKey_rejected h]; rfl

theorem encodeFails_encodeInstr (k : FnKey) (d : Descriptor) (s : State) :
    EncodeFails (encodeInstr k d) k d s :=
  ⟨fun h => exec_encodeInstr_rejected (checkRequest_of_not_slaveFits h s.cfg k),
    fun hs h => exec_encodeInstr_rejected (checkRequest_of_not_quantityFits hs h),
    fun hs hq h => exec_encodeInstr_rejected (checkRequest_of_not_valuesFit hs hq h)⟩

/-! An accepted `ENCODE`: its word, its frame and its record (30_encoding.md rule R77; 41_encoder.md
rules R120, R126). -/

theorem exec_encodeInstr_of_accepted {k : FnKey} {d : Descriptor} {s : State}
    (h : Accepted s.cfg k d) : exec (encodeInstr k d) s = .next (s.afterEncode k d) :=
  exec_encodeInstr_accepted ((checkRequest_eq_none_iff_accepted _ _ _).2 h)

theorem encode_encodeInstr_cmd (k : FnKey) (d : Descriptor) :
    (encode (encodeInstr k d)).cmd = cmdWord 0x5#4 k.code := by cases k <;> rfl

/-- The request frame without its CRC (30_encoding.md rule R60). -/
def requestBody (k : FnKey) (d : Descriptor) : ByteSeq := d.slaveId :: k.code :: payload k d

theorem State.afterEncode_eq_sent (s : State) (k : FnKey) (d : Descriptor) :
    s.afterEncode k d = s.sent k d.quantity (requestBody k d) := rfl

/-- The whole of `ENCODE` of a supported function: what is left per function is its word and the bytes
before the CRC. -/
theorem encodesAs_encodeInstr {k : FnKey} {d : Descriptor} {cmd : BitVec 12} {body : ByteSeq}
    (hcmd : cmdWord 0x5#4 k.code = cmd) (hbody : requestBody k d = body) (s : State) :
    EncodesAs (encodeInstr k d) k cmd d s body := by
  refine ⟨(encode_encodeInstr_cmd k d).trans hcmd, fun ha => ?_, encodeFails_encodeInstr k d s⟩
  rw [exec_encodeInstr_of_accepted ha, State.afterEncode_eq_sent, hbody]

/-- The caps of the two single writes are 1 (00_scope.md rule R8). -/
theorem QuantityFits.eq_one {c : Config} {k : FnKey} {d : Descriptor} (h : QuantityFits c k d)
    (hk : k = .wsc ∨ k = .wsr) : d.quantity = 1#16 := by
  have hcap : qmax c k = 1 := by obtain rfl | rfl := hk <;> rfl
  have hone : d.quantity.toNat = 1 := by omega
  exact BitVec.eq_of_toNat_eq hone

/-! The body of each write request (41_encoder.md rules R131 to R134). -/

theorem requestBody_wsc {d : Descriptor} {v : Bool} (h : d.values = .coils [v]) :
    requestBody .wsc d =
      requestHead 0x05#8 d ++ (if v then [0xFF#8, 0x00#8] else [0x00#8, 0x00#8]) := by
  have hword : beBytes (coilWord v) = if v then [0xFF#8, 0x00#8] else [0x00#8, 0x00#8] := by
    cases v <;> rfl
  rw [← hword, requestBody, payload, h]
  rfl

theorem requestBody_wsr {d : Descriptor} {v : U16} (h : d.values = .regs [v]) :
    requestBody .wsr d = requestHead 0x06#8 d ++ [hi8 v, lo8 v] := by
  rw [requestBody, payload, h]
  rfl

theorem requestBody_wmc {d : Descriptor} {l : List Bool} (h : d.values = .coils l) :
    requestBody .wmc d = requestHead 0x0F#8 d ++ [hi8 d.quantity, lo8 d.quantity,
      BitVec.ofNat 8 ((d.quantity.toNat + 7) / 8)] ++ packBits l := by
  rw [requestBody, payload, h]
  rfl

theorem requestBody_wmr {d : Descriptor} {l : List U16} (h : d.values = .regs l) :
    requestBody .wmr d = requestHead 0x10#8 d ++ [hi8 d.quantity, lo8 d.quantity,
      BitVec.ofNat 8 (2 * d.quantity.toNat)] ++ regBytes l := by
  rw [requestBody, payload, h]
  rfl

/-- Within the bounds of 00_scope.md rule R8 the byte count of the coils fits its octet. -/
theorem byteCount_wmc_toNat {c : Config} {d : Descriptor} (hc : c.wf)
    (h : QuantityFits c .wmc d) :
    (BitVec.ofNat 8 ((d.quantity.toNat + 7) / 8)).toNat = (d.quantity.toNat + 7) / 8 := by
  obtain ⟨-, -, -, -, ⟨-, hcap⟩, -, -⟩ := hc
  obtain ⟨-, hq⟩ := h
  have hcap' : d.quantity.toNat ≤ 2040 := hq.trans hcap
  rw [BitVec.toNat_ofNat]
  exact Nat.mod_eq_of_lt (by omega)

/-- Within the bounds of 00_scope.md rule R8 the byte count of the registers fits its octet. -/
theorem byteCount_wmr_toNat {c : Config} {d : Descriptor} (hc : c.wf)
    (h : QuantityFits c .wmr d) :
    (BitVec.ofNat 8 (2 * d.quantity.toNat)).toNat = 2 * d.quantity.toNat := by
  obtain ⟨-, -, -, -, -, ⟨-, hcap⟩, -⟩ := hc
  obtain ⟨-, hq⟩ := h
  have hcap' : d.quantity.toNat ≤ 127 := hq.trans hcap
  rw [BitVec.toNat_ofNat]
  exact Nat.mod_eq_of_lt (by omega)

/-- The coils in packed order, with zero padding up to the last octet's end (20_memory.md rule R43). -/
theorem byteAt_packBits_getLsbD {l : List Bool} {k : Nat} (hk : k < 8 * (packBits l).length) :
    (byteAt (packBits l) (k / 8)).getLsbD (k % 8) = l.getD k false := by
  rw [packBits_length] at hk
  have hbyte : k / 8 < (l.length + 7) / 8 := by omega
  have hbit : k % 8 < 8 := by omega
  rw [byteAt_packBits hbyte, packByte_getLsbD l _ hbit, Nat.div_add_mod]

/-! Function-code bytes that `ENCODE` does not support (41_encoder.md rule R122). -/

theorem fnKey_eq_none_iff_not_mem (fc : U8) : fnKey? fc = none ↔ fc ∉ supportedCodes := by
  rw [fnKey_eq_none_iff, List.contains_eq_mem, decide_eq_false_iff_not]

theorem getLsbD_seven_of_mem_supportedCodes :
    ∀ fc ∈ supportedCodes, fc.getLsbD 7 = false := by decide

theorem decode_encodeOther_word {fc : U8} (h : fnKey? fc = none) (o : Operands) :
    decode ⟨0x500#12 ||| fc.setWidth 12, o⟩ = .ok (.encodeOther fc o.descriptor) := by
  have hword : 0x500#12 ||| fc.setWidth 12 = cmdWord 0x5#4 fc := rfl
  have hrow : selectRow cmdTable (cmdWord 0x5#4 fc) = some .encodeOther := by
    rw [selectRow_encode, h]; rfl
  rw [hword]
  exact decode_cmdWord hrow (by simp) o

end Sys2Proof.Machine

section
open Sys2Proof Sys2Proof.Machine

/-- Settles O16: within the bounds of the parameters the byte count is exact, and the packed bytes hold
the coils bit by bit. -/
theorem encodeWriteMultipleCoils : Obligations.EncodeWriteMultipleCoils := by
  intro d s hc
  refine ⟨fun l hv _ hq hl => ⟨_, packBits l, encodesAs_encodeInstr rfl (requestBody_wmc hv) s, ?_⟩,
    encodeFails_encodeInstr .wmc d s⟩
  rw [byteCount_wmc_toNat hc hq]
  exact ⟨rfl, by rw [packBits_length, hl], fun k hk => byteAt_packBits_getLsbD hk⟩

/-- Settles O17: within the bounds of the parameters the byte count is exact, and the registers follow
in order, high octet first. -/
theorem encodeWriteMultipleRegisters : Obligations.EncodeWriteMultipleRegisters := by
  intro d s hc
  refine ⟨fun l hv _ hq hl => ⟨_, regBytes l, encodesAs_encodeInstr rfl (requestBody_wmr hv) s, ?_⟩,
    encodeFails_encodeInstr .wmr d s⟩
  rw [byteCount_wmr_toNat hc hq]
  exact ⟨rfl, by rw [regBytes_length, hl], fun k _ => byteAt_regBytes l k⟩

/-- Settles O20: an accepted `ENCODE` sets its own entry alone, and the caps of the single writes leave
only the quantity 1. -/
theorem encodeRecordsQuantity : Obligations.EncodeRecordsQuantity := by
  intro k d s ha
  refine ⟨_, exec_encodeInstr_of_accepted ha, s.afterEncode_get k d, fun hk => ?_,
    fun j hj => s.afterEncode_get_of_ne d hj⟩
  obtain ⟨-, hq, -⟩ := ha
  rw [s.afterEncode_get, hq.eq_one hk]

/-- Settles O22: the accepted `ENCODE` leaves its quantity in the entry that `LOOKUP` reads. -/
theorem lookupAfterEncodeGivesQuantity : Obligations.LookupAfterEncodeGivesQuantity := by
  intro k d s ha
  have hentry : (s.afterEncode k d).T.lookup k.code = .known d.quantity := by
    rw [Tracker.lookup_code, s.afterEncode_get]
  exact ⟨_, _, exec_encodeInstr_of_accepted ha, rfl, congrArg Result.entry hentry⟩

/-- Settles O43, by what an instruction can do: only an accepted `ENCODE` emits, and a well-formed one
is its function's own instruction. -/
theorem onlyAcceptedEncodeEmits : Obligations.OnlyAcceptedEncodeEmits := by
  intro i s t hwf h
  obtain ⟨r, rfl⟩ | ⟨-, rfl⟩ | ⟨b, -, rfl⟩ | ⟨k, d, hi, hn, rfl⟩ | ⟨-, rfl⟩ := exec_next_cases h
  · exact .inl rfl
  · exact .inl rfl
  · exact .inl rfl
  · obtain rfl | rfl := hi
    · have ha := (checkRequest_eq_none_iff_accepted _ _ _).1 hn
      exact .inr ⟨k, d, _, rfl, ha, rfl, rfl, s.afterEncode_get k d⟩
    · exact absurd hwf (by simp [encodeOther_code_not_wellFormed])
  · exact .inl rfl

/-- Settles O13: the four read requests differ in their code only. -/
theorem encodeReadRequests : Obligations.EncodeReadRequests := fun _ s =>
  ⟨encodesAs_encodeInstr (k := .rc) rfl rfl s, encodesAs_encodeInstr (k := .rdi) rfl rfl s,
    encodesAs_encodeInstr (k := .rhr) rfl rfl s, encodesAs_encodeInstr (k := .rir) rfl rfl s⟩

/-- Settles O14: the body carries the one coil's word. -/
theorem encodeWriteSingleCoil : Obligations.EncodeWriteSingleCoil := fun d s =>
  ⟨fun _ hv => encodesAs_encodeInstr rfl (requestBody_wsc hv) s, encodeFails_encodeInstr .wsc d s⟩

/-- Settles O15: the body carries the one register's octets. -/
theorem encodeWriteSingleRegister : Obligations.EncodeWriteSingleRegister := fun d s =>
  ⟨fun _ hv => encodesAs_encodeInstr rfl (requestBody_wsr hv) s, encodeFails_encodeInstr .wsr d s⟩

/-- Settles O19: such a byte has no function, so the first check fails; the eight codes have bit 7
clear. -/
theorem encodeRejectsOtherCodes : Obligations.EncodeRejectsOtherCodes := by
  intro fc d s hfc
  have hk : fnKey? fc = none := (fnKey_eq_none_iff_not_mem fc).2 hfc
  refine ⟨congrArg _ (State.encodeAny_of_not_key hk), ?_, fun b hb hmem => ?_⟩
  · rintro o rfl
    exact decode_encodeOther_word hk o
  · exact absurd (hb.symm.trans (getLsbD_seven_of_mem_supportedCodes b hmem)) (by decide)

end

/-! `DECODE` and its dispatch classes as one run of the frame (42_decoder.md rules R150, R151). -/

namespace Sys2Proof.Machine

theorem octets_eq_none_iff (input : List Symbol) : octets input = none ↔ .bad ∈ input := by
  induction input with
  | nil => simp [octets]
  | cons x t ih => cases x <;> simp [octets, ih]

theorem checkWellformed_bad {input : List Symbol} (hl : 5 ≤ input.length) (h : .bad ∈ input) :
    checkWellformed input = .error .badOctet := by
  rw [checkWellformed, if_neg (by omega), (octets_eq_none_iff input).2 h]

theorem exists_bytes_of_bad_notMem {input : List Symbol} (h : .bad ∉ input) :
    ∃ b : ByteSeq, input = b.map .byte := by
  cases ho : octets input with
  | none => exact absurd ((octets_eq_none_iff input).1 ho) h
  | some b => exact ⟨b, octets_some ho⟩

theorem State.decodeBy_error {s : State} {input : List Symbol} {c : MalformedCause}
    (hr : rxFits s.cfg input.length = true) (hc : checkWellformed input = .error c)
    (g : ByteSeq → DecodedResponse) :
    s.decodeBy input g = .next (s.answer (.malformedFrame c)) := by
  rw [State.decodeBy, if_pos hr, hc]; rfl

/-- Only the branch's response to the input's own bytes counts. -/
theorem State.decodeBy_congr {s : State} {b : ByteSeq} {g g' : ByteSeq → DecodedResponse}
    (h : g b = g' b) : s.decodeBy (b.map .byte) g = s.decodeBy (b.map .byte) g' := by
  unfold State.decodeBy
  cases hc : checkWellformed (b.map .byte) with
  | error c => rfl
  | ok b' =>
    obtain ⟨hb, -⟩ := checkWellformed_ok hc
    obtain rfl := List.map_injective_iff.2 (fun _ _ => Symbol.byte.inj) hb
    simp only [h]

/-- `DECODE` does what a dispatch class does when byte 1 selects the class's branch. -/
theorem exec_decode_eq_decodeClass {s : State} {f : RespFrame} {fb : U8} {rs : Option U16}
    {branch : ByteSeq → RespBase → DecodedResponse}
    (h : respOf s.T (f.bytes fb) f.direction rs =
      branch (f.bytes fb) (respBase (f.bytes fb) f.direction)) :
    exec (.decode ((f.bytes fb).map .byte) f.direction rs) s = s.decodeClass fb f branch :=
  State.decodeBy_congr h

theorem respOf_exception (t : Tracker) {b : ByteSeq} (h : exceptionBit (byteAt b 1) = true)
    (dir : Direction) (rs : Option U16) :
    respOf t b dir rs = respException b (respBase b dir) := if_pos h

theorem respOf_unknown (t : Tracker) {b : ByteSeq} (h : exceptionBit (byteAt b 1) = false)
    (hk : fnKey? (byteAt b 1) = none) (dir : Direction) (rs : Option U16) :
    respOf t b dir rs = respUnknown b (respBase b dir) := by
  rw [respOf, h, hk]; rfl

/-- The branch of a supported code, as its dispatch class runs it (42_decoder.md rules R159 to R166). -/
def keyBranch (t : Tracker) (rs : Option U16) (k : FnKey) (b : ByteSeq) (base : RespBase) :
    DecodedResponse :=
  match k with
  | .rc => respBits t b base rs .rc
  | .rdi => respBits t b base rs .rdi
  | .rhr => respRegs b base rs .rhr
  | .rir => respRegs b base rs .rir
  | .wsc => respWsc b base
  | .wsr => respWsr b base
  | .wmc => respEchoQ b base .wmc
  | .wmr => respEchoQ b base .wmr

theorem respOf_key (t : Tracker) {b : ByteSeq} {k : FnKey} (h : byteAt b 1 = k.code)
    (dir : Direction) (rs : Option U16) :
    respOf t b dir rs = keyBranch t rs k b (respBase b dir) := by
  rw [respOf, h]
  cases k <;> rfl

theorem exec_key (k : FnKey) (f : RespFrame) (rs : Option U16) (s : State) :
    exec ((FrameRow.key k).toInstr k.code f rs) s =
      s.decodeClass k.code f (keyBranch s.T rs k) := by
  cases k <;> rfl

theorem or_0x80_setWidth_of_exception {fb : U8} (h : exceptionBit fb = true) :
    0x80#8 ||| (fb.setWidth 7).setWidth 8 = fb := by
  revert fb; decide

theorem setWidth_setWidth_of_plain {fb : U8} (h : exceptionBit fb = false) :
    (fb.setWidth 7).setWidth 8 = fb := by
  revert fb; decide

theorem exec_decode_exception {fb : U8} (h : exceptionBit fb = true) (f : RespFrame)
    (rs : Option U16) (s : State) :
    exec (.decode ((f.bytes fb).map .byte) f.direction rs) s =
      exec (.decException (fb.setWidth 7) f) s := by
  change _ = s.decodeClass (0x80#8 ||| (fb.setWidth 7).setWidth 8) f respException
  rw [or_0x80_setWidth_of_exception h]
  exact exec_decode_eq_decodeClass (respOf_exception s.T (b := f.bytes fb) h f.direction rs)

theorem exec_decode_unknown {fb : U8} (h : exceptionBit fb = false) (hk : fnKey? fb = none)
    (f : RespFrame) (rs : Option U16) (s : State) :
    exec (.decode ((f.bytes fb).map .byte) f.direction rs) s =
      exec (.decUnknown (fb.setWidth 7) f) s := by
  change _ = s.decodeClass ((fb.setWidth 7).setWidth 8) f respUnknown
  rw [setWidth_setWidth_of_plain h]
  exact exec_decode_eq_decodeClass (respOf_unknown s.T (b := f.bytes fb) h hk f.direction rs)

theorem exec_decode_key (k : FnKey) (f : RespFrame) (rs : Option U16) (s : State) :
    exec (.decode ((f.bytes k.code).map .byte) f.direction rs) s =
      exec ((FrameRow.key k).toInstr k.code f rs) s := by
  rw [exec_key]
  exact exec_decode_eq_decodeClass (respOf_key s.T (b := f.bytes k.code) rfl f.direction rs)

/-! What a response takes from its frame (42_decoder.md rules R152 to R168). -/

/-- The parts of a frame that a branch reads agree: bytes 0 to 2, the data region, the echo fields. -/
structure SameFields (b c : ByteSeq) : Prop where
  head : ∀ i < 3, byteAt c i = byteAt b i
  data : dataRegion c = dataRegion b
  echo : ∀ p, echoField c p = echoField b p

theorem SameFields.refl (b : ByteSeq) : SameFields b b := ⟨fun _ _ => rfl, rfl, fun _ => rfl⟩

/-- A response is a function of the fields and of its own code's read-bits entry, but for the CRC check,
the raw frame and the direction, which it carries beside. -/
theorem respOf_congr {b c : ByteSeq} (h : SameFields b c) {t u : Tracker}
    (hrc : byteAt b 1 = 0x01#8 → u.rc = t.rc) (hrdi : byteAt b 1 = 0x02#8 → u.rdi = t.rdi)
    (dir dir' : Direction) (rs : Option U16) :
    respOf u c dir' rs =
      { respOf t b dir rs with crcValid := crcOk c, rawFrame := c, direction := dir' } := by
  have h0 := h.head 0 (by decide)
  have h1 := h.head 1 (by decide)
  have h2 := h.head 2 (by decide)
  cases hx : exceptionBit (byteAt b 1) with
  | true =>
    rw [respOf_exception t hx, respOf_exception u (h1 ▸ hx)]
    simp [respException, RespBase.fill, respBase, h0, h1, h2]
  | false =>
    cases hk : fnKey? (byteAt b 1) with
    | none =>
      rw [respOf_unknown t hx hk, respOf_unknown u (h1 ▸ hx) (h1 ▸ hk)]
      simp [respUnknown, RespBase.fill, respBase, h0, h1]
    | some k =>
      have hb := (fnKey_eq_some_iff _ k).1 hk
      rw [respOf_key t hb, respOf_key u (h1 ▸ hb)]
      cases k with
      | rc => simp [keyBranch, respBits, RespBase.fill, respBase, h0, h.data, Tracker.get, hrc hb]
      | rdi => simp [keyBranch, respBits, RespBase.fill, respBase, h0, h.data, Tracker.get, hrdi hb]
      | rhr | rir => simp [keyBranch, respRegs, RespBase.fill, respBase, h0, h.data]
      | wsc => simp [keyBranch, respWsc, RespBase.fill, respBase, h0, h.echo]
      | wsr => simp [keyBranch, respWsr, RespBase.fill, respBase, h0, h.echo]
      | wmc | wmr => simp [keyBranch, respEchoQ, RespBase.fill, respBase, h0, h.echo]

/-- The header fields are the same in every branch. -/
theorem respOf_header (t : Tracker) (b : ByteSeq) (dir : Direction) (rs : Option U16) :
    (respOf t b dir rs).slaveId = byteAt b 0 ∧ (respOf t b dir rs).crcValid = crcOk b ∧
      (respOf t b dir rs).rawFrame = b ∧ (respOf t b dir rs).direction = dir := by
  cases h : exceptionBit (byteAt b 1) with
  | true => rw [respOf_exception t h]; exact ⟨rfl, rfl, rfl, rfl⟩
  | false =>
    obtain ⟨start, v, hr⟩ := respOf_plain t h dir rs
    rw [hr]; exact ⟨rfl, rfl, rfl, rfl⟩

theorem getElem?_map_byte {b : ByteSeq} {i : Nat} (h : i < b.length) :
    (b.map Symbol.byte)[i]? = some (.byte (byteAt b i)) := by
  simp [byteAt, h]

/-- The parameters and the own code's read-bits entry are all that a `DECODE` reads of the state. -/
theorem exec_decode_of_entries_agree {input : List Symbol} {dir : Direction} {rs : Option U16}
    {s t u : State} (h : exec (.decode input dir rs) s = .next t) (hcfg : u.cfg = s.cfg)
    (hrc : input[1]? = some (.byte 0x01#8) → u.T.rc = s.T.rc)
    (hrdi : input[1]? = some (.byte 0x02#8) → u.T.rdi = s.T.rdi) :
    exec (.decode input dir rs) u = .next (u.returned t.result) := by
  obtain ⟨hr, ⟨c, hc, rfl⟩ | ⟨b, hc, rfl⟩⟩ := State.decodeBy_cases h
  · exact State.decodeBy_error (hcfg ▸ hr) hc _
  · obtain ⟨rfl, hl⟩ := checkWellformed_ok hc
    rw [getElem?_map_byte (by omega)] at hrc hrdi
    have hresp : respOf u.T b dir rs = respOf s.T b dir rs :=
      (respOf_congr (.refl b) (fun h1 => hrc (h1 ▸ rfl)) (fun h1 => hrdi (h1 ▸ rfl)) dir dir rs).trans
        (respOf_congr (.refl b) (fun _ => rfl) (fun _ => rfl) dir dir rs).symm
    have hru : rxFits u.cfg b.length = true := by simpa [hcfg] using hr
    have hrun := State.decodeBy_bytes (respOf u.T · dir rs) hl hru
    rw [hresp] at hrun
    exact hrun

/-! The two CRC bytes are outside every field (42_decoder.md rules R152, R170). -/

theorem byteAt_append {body tail : ByteSeq} {i : Nat} (h : i < body.length) :
    byteAt (body ++ tail) i = byteAt body i :=
  List.getD_append _ _ _ _ h

theorem dataRegion_append_pair {body : ByteSeq} (h : 3 ≤ body.length) (c e : U8) :
    dataRegion (body ++ [c, e]) = slice body 3 (min (3 + (byteAt body 2).toNat) body.length) := by
  rw [dataRegion, byteAt_append h]
  simp only [slice, List.length_append, List.length_cons, List.length_nil, Nat.add_sub_cancel]
  rw [List.take_append_of_le_length (Nat.min_le_right ..)]

theorem echoField_append_pair (body : ByteSeq) (c e : U8) (p : Nat) :
    echoField (body ++ [c, e]) p =
      if p + 2 ≤ body.length then some (be16 (byteAt body p) (byteAt body (p + 1))) else none := by
  unfold echoField
  by_cases hp : p + 2 ≤ body.length
  · simp [hp, byteAt_append (show p < body.length by omega),
      byteAt_append (show p + 1 < body.length by omega)]
  · simp [hp]

theorem sameFields_append_pair {body : ByteSeq} (h : 3 ≤ body.length) (c₁ c₂ e₁ e₂ : U8) :
    SameFields (body ++ [c₁, c₂]) (body ++ [e₁, e₂]) where
  head i hi := by rw [byteAt_append (by omega), byteAt_append (by omega)]
  data := by rw [dataRegion_append_pair h, dataRegion_append_pair h]
  echo p := by rw [echoField_append_pair, echoField_append_pair]

/-! A dispatch class returns the fields that its branch fills in (42_decoder.md rules R157 to R168). -/

theorem decodesTo_of_branch {i : Instr} {s : State} {fb fc : U8} {f : RespFrame} {x : Bool}
    {start : Option U16} {v : DecodedValues} {branch : ByteSeq → RespBase → DecodedResponse}
    (hexec : exec i s = s.decodeClass fb f branch) (hfit : FrameFits s.cfg f)
    (hbranch : ∀ base, branch (f.bytes fb) base = base.fill fc x start v) :
    DecodesTo i s fb fc f (kindOf fc) x start v := by
  obtain ⟨hl, hm⟩ := hfit
  rw [DecodesTo, hexec, State.decodeClass_eq _ hl (rxFits_of_le hm), hbranch]
  rfl

/-- Masking bit 7 off an exception's byte 1 gives its function code. -/
theorem or_0x80_and_0x7F (fc : BitVec 7) : (0x80#8 ||| fc.setWidth 8) &&& 0x7F#8 = fc.setWidth 8 := by
  revert fc; decide

theorem byteAt_slice {s : ByteSeq} {a n j : Nat} (h : j < (slice s a n).length) :
    byteAt (slice s a n) j = byteAt s (a + j) := by
  simp only [slice, List.length_drop, List.length_take] at h
  simp only [byteAt, slice, List.getD_eq_getElem?_getD, List.getElem?_drop]
  rw [List.getElem?_take_of_lt (by omega)]

/-- The data region as octets of the tail, whose first is the byte count. -/
theorem byteAt_dataRegion_bytes {f : RespFrame} {fb : U8} {j : Nat}
    (h : j < (dataRegion (f.bytes fb)).length) :
    byteAt (dataRegion (f.bytes fb)) j = byteAt f.tail (1 + j) := by
  rw [dataRegion, byteAt_slice h, show 3 + j = 1 + j + 2 by omega, byteAt_bytes_tail]

theorem dataRegion_bytes_length (f : RespFrame) (fb : U8) :
    (dataRegion (f.bytes fb)).length = min (byteAt f.tail 0).toNat (f.tail.length - 3) := by
  rw [dataRegion_length, RespFrame.bytes_length, byteAt_bytes_tail, Nat.add_sub_add_right _ 2 3]

theorem bitCount_le (e : Entry) (avail : Nat) : bitCount e avail ≤ 8 * avail := by
  cases e with
  | unknown => exact Nat.le_refl _
  | known q => exact Nat.min_le_right ..

theorem unpackBits_getD {q k : Nat} (h : k < q) (data : ByteSeq) :
    (unpackBits data q).getD k false = (byteAt data (k / 8)).getLsbD (k % 8) := by
  simp [unpackBits, h]

/-- A read-bits class reports as many bits as its entry asks for, LSB first (42_decoder.md rule R159). -/
theorem decodesTo_readBits {i : Instr} {k : FnKey} {f : RespFrame} {rs : Option U16} {s : State}
    (hexec : exec i s = s.decodeClass k.code f fun b base => respBits s.T b base rs k)
    (hfit : FrameFits s.cfg f) :
    ∃ l, DecodesTo i s k.code k.code f (kindOf k.code) false rs (.bits l) ∧
      l.length = bitCount (s.T.get k) (min (byteAt f.tail 0).toNat (f.tail.length - 3)) ∧
      ∀ m, m < l.length → l.getD m false = (byteAt f.tail (1 + m / 8)).getLsbD (m % 8) := by
  refine ⟨_, decodesTo_of_branch hexec hfit fun _ => rfl, ?_, fun m hm => ?_⟩
  · rw [unpackBits_length, dataRegion_bytes_length]
  · rw [unpackBits_length] at hm
    have hbyte : m / 8 < (dataRegion (f.bytes k.code)).length := by
      have hcount := bitCount_le (s.T.get k) (dataRegion (f.bytes k.code)).length
      omega
    rw [unpackBits_getD hm, byteAt_dataRegion_bytes hbyte]

theorem readRegs_getD_toNat {data : ByteSeq} {k : Nat} (h : k < data.length / 2) :
    ((readRegs data).getD k 0#16).toNat =
      256 * (byteAt data (2 * k)).toNat + (byteAt data (2 * k + 1)).toNat := by
  simp [readRegs, h]

/-- The data region does not depend on byte 1. -/
theorem dataRegion_bytes_congr (f : RespFrame) (fb fc : U8) :
    dataRegion (f.bytes fb) = dataRegion (f.bytes fc) := by
  refine List.ext_getElem (by simp only [dataRegion_bytes_length]) fun j hj hj' => ?_
  have h := (byteAt_dataRegion_bytes hj).trans (byteAt_dataRegion_bytes hj').symm
  simpa [byteAt, hj, hj'] using h

/-- The address of an echo is present from 6 bytes on. -/
theorem echoField_bytes_two (f : RespFrame) (fb : U8) :
    echoField (f.bytes fb) 2 =
      if 6 ≤ f.tail.length + 2 then some (be16 (byteAt f.tail 0) (byteAt f.tail 1)) else none :=
  if_congr (by rw [RespFrame.bytes_length]; omega) rfl rfl

/-- The word of an echo is present from 8 bytes on. -/
theorem echoField_bytes_four (f : RespFrame) (fb : U8) :
    echoField (f.bytes fb) 4 =
      if 8 ≤ f.tail.length + 2 then some (be16 (byteAt f.tail 2) (byteAt f.tail 3)) else none :=
  if_congr (by rw [RespFrame.bytes_length]; omega) rfl rfl

theorem kindOf_of_not_mem {fc : U8} (h : fc ∉ supportedCodes) : kindOf fc = .unknown := by
  rw [kindOf, (fnKey_eq_none_iff_not_mem fc).2 h]

end Sys2Proof.Machine

section
open Sys2Proof Sys2Proof.Machine

/-- Settles O25: each class runs the branch that `respOf` selects for its byte 1, on the same input. -/
theorem decodeRunsItsBranch : Obligations.DecodeRunsItsBranch := by
  intro sid fb tail dir rs s _
  cases hx : exceptionBit fb with
  | true =>
    exact (exec_decode_exception hx ⟨sid, tail, dir⟩ rs s).trans (if_pos hx).symm
  | false =>
    rw [if_neg (show ¬ fb.getLsbD 7 = true from Bool.eq_false_iff.1 hx)]
    cases hk : fnKey? fb with
    | some k =>
      obtain rfl := (fnKey_eq_some_iff fb k).1 hk
      refine (exec_decode_key k ⟨sid, tail, dir⟩ rs s).trans ?_
      cases k <;> rfl
    | none =>
      have hne := (fnKey_eq_none_iff_not_mem fb).1 hk
      simp only [supportedCodes, List.mem_cons, List.not_mem_nil, or_false, not_or] at hne
      simp only [hne, if_false]
      exact exec_decode_unknown hx hk ⟨sid, tail, dir⟩ rs s

/-- Settles O26: the header fields and the direction stand beside what the branch reads. -/
theorem decodeReportsHeader : Obligations.DecodeReportsHeader := by
  intro b rs s hl hfit
  obtain ⟨hid, hcrc, hraw, -⟩ := respOf_header s.T b .request rs
  refine ⟨respOf s.T b .request rs, hid, hcrc, hraw, fun dir => ?_⟩
  rw [exec_decode_bytes hl hfit, hcrc, hraw,
    respOf_congr (.refl b) (fun _ => rfl) (fun _ => rfl) .request dir rs (t := s.T)]
  rfl

/-- Settles O27: the read branches pass `reqStart` on; the exception and the unknown one do not. -/
theorem decodeStartAddress : Obligations.DecodeStartAddress := by
  intro b dir rs s hl hfit
  refine ⟨_, exec_decode_bytes hl hfit dir rs, fun hread => ?_, fun hne => ?_⟩
  · simp only [List.mem_cons, List.not_mem_nil, or_false] at hread
    obtain h | h | h | h := hread
    · rw [respOf_readBits (.inl rfl) _ h]; rfl
    · rw [respOf_readBits (.inr rfl) _ h]; rfl
    · rw [respOf_readRegs (.inl rfl) _ h]; rfl
    · rw [respOf_readRegs (.inr rfl) _ h]; rfl
  · cases hx : exceptionBit (byteAt b 1) with
    | true => rw [respOf_exception _ hx]; rfl
    | false => rw [respOf_unknown _ hx ((fnKey_eq_none_iff_not_mem _).2 hne)]; rfl

/-- Settles O30: both classes unpack as many bits of the data region as their own entry asks for. -/
theorem decodeReadBits : Obligations.DecodeReadBits := by
  rintro f rs s hfit _ rfl
  exact ⟨decodesTo_readBits (k := .rc) rfl hfit, decodesTo_readBits (k := .rdi) rfl hfit⟩

/-- Settles O31: the registers are read from the data region, which is the same for both codes. -/
theorem decodeReadRegisters : Obligations.DecodeReadRegisters := by
  intro f rs s hfit
  refine ⟨readRegs (dataRegion (f.bytes 0x03#8)),
    decodesTo_of_branch (exec_key .rhr f rs s) hfit fun _ => rfl,
    decodesTo_of_branch (exec_key .rir f rs s) hfit fun base => ?_, ?_, fun k hk => ?_⟩
  · rw [dataRegion_bytes_congr f _ 0x04#8]; rfl
  · rw [readRegs_length, dataRegion_bytes_length]
  · rw [readRegs_length] at hk
    rw [readRegs_getD_toNat hk, byteAt_dataRegion_bytes (by omega), byteAt_dataRegion_bytes (by omega),
      show 1 + (2 * k + 1) = 2 + 2 * k by omega]

/-- Settles O37: no field of a response but its CRC check and raw frame reads the last two bytes. -/
theorem badCrcKeepsValues : Obligations.BadCrcKeepsValues := by
  intro body c₁ c₂ e₁ e₂ dir rs s hl hfit
  have hrun (x y : U8) := exec_decode_bytes (s := s) (b := body ++ [x, y]) (by simp; omega)
    (by simpa using hfit) dir rs
  obtain ⟨-, -, -, hdir⟩ := respOf_header s.T (body ++ [c₁, c₂]) dir rs
  refine ⟨_, crcOk (body ++ [e₁, e₂]), hrun c₁ c₂, ?_⟩
  rw [hrun e₁ e₂, hdir,
    respOf_congr (sameFields_append_pair hl c₁ c₂ e₁ e₂) (fun _ => rfl) (fun _ => rfl) dir dir rs
      (t := s.T)]
  rfl

/-- Settles O38: a second state with the same parameters and the same own entry decodes alike, and the
state after the first `DECODE` is one. -/
theorem decodeDependsOnOwnEntryOnly : Obligations.DecodeDependsOnOwnEntryOnly := by
  intro input dir rs s t h
  obtain ⟨r, rfl⟩ := exec_receiverOp rfl h
  exact ⟨rfl, exec_decode_of_entries_agree h rfl (fun _ => rfl) fun _ => rfl,
    fun u => exec_decode_of_entries_agree h⟩

/-- Settles O24: the length is checked first, then the octets. -/
theorem decodeReportsMalformed : Obligations.DecodeReportsMalformed := by
  intro input dir rs s hfit
  have hr := rxFits_of_le hfit
  refine ⟨fun hl => State.decodeBy_error hr (checkWellformed_short hl) _,
    fun hl hbad => State.decodeBy_error hr (checkWellformed_bad hl hbad) _, fun hl hbad => ?_⟩
  obtain ⟨b, rfl⟩ := exists_bytes_of_bad_notMem hbad
  rw [List.length_map] at hl hfit
  exact ⟨_, exec_decode_bytes hl hfit dir rs⟩

/-- Settles O28: byte 1 with bit 7 masked off is the function code, and byte 2 the exception code. -/
theorem decodeExceptionResponse : Obligations.DecodeExceptionResponse := by
  intro fc f s hfit
  refine decodesTo_of_branch rfl hfit fun base => ?_
  rw [respException, byteAt_bytes_one, or_0x80_and_0x7F, byteAt_bytes_tail]

/-- Settles O32: the address and the coil word are the echo fields at 2 and 4. -/
theorem decodeWriteSingleCoil : Obligations.DecodeWriteSingleCoil := by
  intro f s hfit start raw hstart hraw
  rw [hstart, hraw, ← echoField_bytes_two f 0x05#8, ← echoField_bytes_four f 0x05#8]
  exact decodesTo_of_branch (exec_key .wsc f none s) hfit fun _ => rfl

/-- Settles O33: the address and the value are the echo fields at 2 and 4. -/
theorem decodeWriteSingleRegister : Obligations.DecodeWriteSingleRegister := by
  intro f s hfit start v hstart hv
  rw [hstart, hv, ← echoField_bytes_two f 0x06#8, ← echoField_bytes_four f 0x06#8]
  exact decodesTo_of_branch (exec_key .wsr f none s) hfit fun _ => rfl

/-- Settles O34: the address and the quantity are the echo fields at 2 and 4, for both codes. -/
theorem decodeWriteMultiple : Obligations.DecodeWriteMultiple := by
  intro f s hfit start q hstart hq
  have ha (fb : U8) := hstart.trans (echoField_bytes_two f fb).symm
  have hw (fb : U8) := hq.trans (echoField_bytes_four f fb).symm
  constructor
  · rw [ha 0x0F#8, hw 0x0F#8]
    exact decodesTo_of_branch (exec_key .wmc f none s) hfit fun _ => rfl
  · rw [ha 0x10#8, hw 0x10#8]
    exact decodesTo_of_branch (exec_key .wmr f none s) hfit fun _ => rfl

/-- Settles O35: such a byte has no kind, and the branch fills in nothing. -/
theorem decodeUnknownCode : Obligations.DecodeUnknownCode := by
  intro fc f s hfit hne
  rw [← kindOf_of_not_mem hne]
  exact decodesTo_of_branch rfl hfit fun _ => rfl

end

/-! `LOOKUP` of any byte (43_tracker.md rule R191). -/

namespace Sys2Proof.Machine

theorem decode_lookup_word (fc : U8) (o : Operands) :
    decode ⟨0x700#12 ||| fc.setWidth 12, o⟩ = .ok (.lookup fc) :=
  decode_cmdWord (selectRow_lookup fc) (by simp) o

theorem exec_lookup_of_entry {fc : U8} {s : State} {e : Entry} (h : s.T.lookup fc = e) :
    exec (.lookup fc) s = .next (s.returned (.entry e)) := by
  rw [← h]; rfl

@[simp] theorem Tracker.lookup_empty (fc : U8) : Tracker.empty.lookup fc = .unknown := by
  cases hk : fnKey? fc with
  | none => exact Tracker.lookup_of_not_key _ hk
  | some k => rw [(fnKey_eq_some_iff fc k).1 hk, Tracker.lookup_code, Tracker.get_empty]

end Sys2Proof.Machine

section
open Sys2Proof Sys2Proof.Machine

/-- Settles O23: `LOOKUP` returns the tracker's entry of the byte, which is the key's own, or `unknown`
for a byte that is no key and for every byte of the empty tracker that `RESET` leaves. -/
theorem lookupReturnsEntry : Obligations.LookupReturnsEntry := by
  refine ⟨decode_lookup_word, fun k s => ?_, fun fc s hne => ?_, fun fc s => ?_⟩
  · exact exec_lookup_of_entry (s.T.lookup_code k)
  · exact exec_lookup_of_entry (s.T.lookup_of_not_key ((fnKey_eq_none_iff_not_mem fc).2 hne))
  · exact ⟨_, rfl, exec_lookup_of_entry (Tracker.lookup_empty fc)⟩

end

/-! A step on an `ENCODE` word (41_encoder.md rule R120; 60_exceptions.md rule R202). -/

namespace Sys2Proof.Machine

/-- An `ENCODE` word has the row of its supported function, or `ENCODE.OTHER`'s; both run `ENCODE` of
the word's byte. -/
theorem exec_encodeRow (fc : U8) (o : Operands) (s : State) :
    exec (((fnKey? fc).elim CmdRow.encodeOther CmdRow.encode).toInstr fc o) s =
      .next (s.encodeAny fc o.descriptor) := by
  cases hk : fnKey? fc with
  | none => rfl
  | some k =>
    rw [(fnKey_eq_some_iff fc k).1 hk, State.encodeAny_code]
    exact exec_encodeInstr k o.descriptor s

theorem step_encode_word {s : State} {r : Request} {rest : List Request} {fc : U8}
    (hp : s.pending = r :: rest) (hcmd : r.cmd = 0x500#12 ||| fc.setWidth 12) :
    step s = .next (s.advance.encodeAny fc r.ops.descriptor) := by
  have hne : (fnKey? fc).elim CmdRow.encodeOther CmdRow.encode ≠ .decode := by
    cases fnKey? fc <;> simp
  have hd : decode ⟨cmdWord 0x5#4 fc, r.ops⟩ = .ok _ :=
    decode_cmdWord (selectRow_encode fc) hne r.ops
  have hword : cmdWord 0x5#4 fc = r.cmd := hcmd.symm
  rw [hword] at hd
  rw [step_cons hp hd, exec_encodeRow]

theorem State.encodeKey_result_of_rejected {s : State} {k : FnKey} {d : Descriptor}
    {cause : InvalidCause} (h : checkRequest s.cfg k d = some cause) :
    (s.encodeKey k d).result = .invalidRequest cause := by
  rw [State.encodeKey_rejected h, State.answer_result]

theorem State.encodeKey_result_of_accepted {s : State} {k : FnKey} {d : Descriptor}
    (h : Accepted s.cfg k d) : (s.encodeKey k d).result = .frame (requestFrame k d) := by
  rw [State.encodeKey_accepted ((checkRequest_eq_none_iff_accepted _ _ _).2 h), State.answer_result]

/-! What an operation can return, and when it completes (60_exceptions.md rules R200, R207). -/

/-- An operation changes the result alone, or it succeeds. -/
theorem exec_eq_answer_or_succeeds {i : Instr} {s t : State} (h : exec i s = .next t) :
    (∃ r, t = s.answer r) ∨ t.result = .noValue ∨ ∃ f, t.result = .frame f := by
  obtain hr | ⟨-, rfl⟩ | ⟨b, -, rfl⟩ | ⟨k, d, -, -, rfl⟩ | ⟨-, rfl⟩ := exec_next_cases h
  · exact .inl hr
  · exact .inr (.inl rfl)
  · exact .inr (.inl rfl)
  · exact .inr (.inr ⟨_, rfl⟩)
  · exact .inr (.inl rfl)

theorem State.decodeBy_completes {s : State} {input : List Symbol}
    (h : rxFits s.cfg input.length = true) (g : ByteSeq → DecodedResponse) :
    ∃ t, s.decodeBy input g = .next t := by
  cases hc : checkWellformed input with
  | error cause => exact ⟨_, State.decodeBy_error h hc g⟩
  | ok b =>
    obtain ⟨rfl, hl⟩ := checkWellformed_ok hc
    exact ⟨_, State.decodeBy_bytes g hl (by simpa using h)⟩

/-- An operation without an input of symbols has no way to be refused. -/
theorem exec_completes_of_no_input {i : Instr} (h : inputLength i = none) (s : State) :
    ∃ t, exec i s = .next t := by
  cases i with
  | crcCompute | crcInit | crcUpdate | crcRead | encodeRc | encodeRdi | encodeRhr | encodeRir
  | encodeWsc | encodeWsr | encodeWmc | encodeWmr | encodeOther | lookup | reset => exact ⟨_, rfl⟩
  | decode | decException | decRc | decRdi | decRhr | decRir | decWsc | decWsr | decWmc | decWmr
  | decUnknown => cases h

/-! Which command words have a meaning (30_encoding.md rules R77, R80; 60_exceptions.md rule R209). -/

theorem cmdOp_toNat (cmd : BitVec 12) : (cmdOp cmd).toNat = cmd.toNat / 256 := by
  rw [cmdOp, BitVec.extractLsb'_toNat, Nat.shiftRight_eq_div_pow]
  omega

theorem cmdArg_toNat (cmd : BitVec 12) : (cmdArg cmd).toNat = cmd.toNat % 256 := by
  rw [cmdArg, BitVec.extractLsb'_toNat, Nat.shiftRight_zero]

theorem cmdOp_and_0xF00 (cmd : BitVec 12) : cmdOp (cmd &&& 0xF00#12) = cmdOp cmd := by
  have hones : cmdOp 0xF00#12 = BitVec.allOnes 4 := rfl
  rw [cmdOp, BitVec.extractLsb'_and, ← cmdOp, ← cmdOp, hones, BitVec.and_allOnes]

/-- The operation codes whose argument byte is an operand (30_encoding.md rule R77). -/
def argOps : List (BitVec 4) := [0x3#4, 0x5#4, 0x7#4]

/-- The operation codes whose argument byte has to be 0x00 (30_encoding.md rule R77). -/
def zeroArgOps : List (BitVec 4) := [0x1#4, 0x2#4, 0x4#4, 0x6#4, 0xF#4]

/-- The words that rule R77 gives a meaning. -/
abbrev HasMeaning (cmd : BitVec 12) : Prop :=
  cmdOp cmd ∈ argOps ∨ cmdOp cmd ∈ zeroArgOps ∧ cmdArg cmd = 0x00#8

/-- A row of the table is one word with a meaning, or all words of an operation code that takes an
argument. -/
theorem cmdTable_hasMeaning : ∀ r ∈ cmdTable,
    (r.mask = 0xFFF#12 ∧ HasMeaning r.pattern) ∨
    (r.mask = 0xF00#12 ∧ cmdOp r.pattern ∈ argOps) := by decide

theorem hasMeaning_of_selectRow {cmd : BitVec 12} {row : CmdRow}
    (h : selectRow cmdTable cmd = some row) : HasMeaning cmd := by
  obtain ⟨r, hr, -, hm⟩ := selectRow_some h
  have hpat : cmd &&& r.mask = r.pattern := by simpa [TableRow.matches] using hm
  obtain ⟨hmask, hword⟩ | ⟨hmask, hop⟩ := cmdTable_hasMeaning r hr
  · have hcmd : cmd = r.pattern := by rw [← hpat, hmask]; exact BitVec.and_allOnes.symm
    exact hcmd ▸ hword
  · exact .inl (by rwa [← hpat, hmask, cmdOp_and_0xF00] at hop)

theorem selectRow_of_argOps {op : BitVec 4} (h : op ∈ argOps) (arg : U8) :
    ∃ row, selectRow cmdTable (cmdWord op arg) = some row := by
  simp only [argOps, List.mem_cons, List.not_mem_nil, or_false] at h
  obtain rfl | rfl | rfl := h
  · exact ⟨_, selectRow_crcUpdate arg⟩
  · exact ⟨_, selectRow_encode arg⟩
  · exact ⟨_, selectRow_lookup arg⟩

theorem selectRow_of_zeroArgOps :
    ∀ op ∈ zeroArgOps, (selectRow cmdTable (cmdWord op 0x00#8)).isSome = true := by decide

/-- Exactly the words with a meaning select a row. -/
theorem selectRow_isSome_iff_hasMeaning (cmd : BitVec 12) :
    (∃ row, selectRow cmdTable cmd = some row) ↔ HasMeaning cmd := by
  refine ⟨fun ⟨_, h⟩ => hasMeaning_of_selectRow h, fun h => ?_⟩
  rw [← cmdWord_cmdOp_cmdArg cmd]
  obtain hop | ⟨hop, harg⟩ := h
  · exact selectRow_of_argOps hop _
  · rw [harg]
    exact Option.isSome_iff_exists.1 (selectRow_of_zeroArgOps _ hop)

/-- A word with a meaning decodes, whatever the operands. -/
theorem decode_of_hasMeaning {r : Request} (h : HasMeaning r.cmd) : ∃ i, decode r = .ok i := by
  obtain ⟨row, hrow⟩ := (selectRow_isSome_iff_hasMeaning r.cmd).2 h
  rw [decode, decodeCommand_of_selectRow hrow r.ops]
  split
  · exact ⟨_, rfl⟩
  · exact ⟨_, rfl⟩
  · next he => cases he

/-- A word without a meaning is refused under its name (log entry 12). -/
theorem decode_of_not_hasMeaning {r : Request} (h : ¬ HasMeaning r.cmd) :
    decode r = .error (rejection r.cmd) := by
  have hrow : selectRow cmdTable r.cmd = none :=
    Option.eq_none_iff_forall_ne_some.2 fun _ hrow => h (hasMeaning_of_selectRow hrow)
  rw [decode, decodeCommand_refused hrow rfl r.ops]

theorem step_refused {s : State} {r : Request} {rest : List Request} {e : DecodeError}
    (hp : s.pending = r :: rest) (hd : decode r = .error e) : step s = .refused (refusalOf e) := by
  simp only [step, State.fetch_error hp hd]

/-- A run stops at a refused step. -/
theorem runSteps_succ_of_refused {n : Nat} {s : State} {e : Refusal} (h : step s = .refused e) :
    runSteps (n + 1) s = .refused e := by
  have hcore : core.step s = .refused e := h
  simp only [runSteps, Host.Core.run, hcore]
  rfl

theorem runSteps_of_not_hasMeaning {n : Nat} {s : State} {r : Request} {rest : List Request}
    (hp : s.pending = r :: rest) (h : ¬ HasMeaning r.cmd) :
    runSteps (n + 1) s =
      .refused (if reservedOp (cmdOp r.cmd) then .reservedOp else .nonzeroArg) := by
  rw [runSteps_succ_of_refused (step_refused hp (decode_of_not_hasMeaning h)), rejection]
  split <;> rfl

/-! The three kinds of operation codes of rule R77, by their numbers. -/

theorem reservedOp_iff_toNat (op : BitVec 4) :
    reservedOp op = true ↔ op.toNat = 0 ∨ (8 ≤ op.toNat ∧ op.toNat ≤ 14) := by
  revert op; decide

theorem mem_argOps_iff_toNat (op : BitVec 4) : op ∈ argOps ↔ op.toNat ∈ [3, 5, 7] := by
  revert op; decide

theorem mem_zeroArgOps_iff_toNat (op : BitVec 4) :
    op ∈ zeroArgOps ↔ op.toNat ∈ [1, 2, 4, 6, 15] := by
  revert op; decide

/-- The three kinds are disjoint. -/
theorem not_mem_of_reservedOp {op : BitVec 4} (h : reservedOp op = true) :
    op ∉ argOps ∧ op ∉ zeroArgOps := by
  revert op; decide

theorem not_mem_argOps_of_mem_zeroArgOps : ∀ op ∈ zeroArgOps, op ∉ argOps := by decide

theorem reservedOp_of_mem_zeroArgOps : ∀ op ∈ zeroArgOps, reservedOp op = false := by decide

end Sys2Proof.Machine

section
open Sys2Proof Sys2Proof.Machine

/-- Settles O18: the word's step is `ENCODE` of its byte, which checks the function code and then the
descriptor in the order of the rule. -/
theorem encodeChecksInOrder : Obligations.EncodeChecksInOrder := by
  intro s r rest fc hp hcmd
  refine ⟨_, step_encode_word hp hcmd, fun hne => ?_, ?_⟩
  · rw [State.encodeAny_of_not_key ((fnKey_eq_none_iff_not_mem fc).2 hne), State.answer_result]
  · rintro k rfl
    rw [State.encodeAny_code]
    exact
      ⟨fun hs => State.encodeKey_result_of_rejected (checkRequest_of_not_slaveFits hs _ k),
        fun hs hq => State.encodeKey_result_of_rejected (checkRequest_of_not_quantityFits hs hq),
        fun hs hq hv => State.encodeKey_result_of_rejected (checkRequest_of_not_valuesFit hs hq hv),
        fun ha => ⟨_, State.encodeKey_result_of_accepted ha⟩⟩

/-- Settles O40: an operation that writes more than the result returns no value or a frame. -/
theorem errorOutcomeChangesNoState : Obligations.ErrorOutcomeChangesNoState := by
  intro i s t h herr
  obtain ⟨r, rfl⟩ | hval | ⟨f, hval⟩ := exec_eq_answer_or_succeeds h
  · rfl
  · simp [hval] at herr
  · simp [hval] at herr

/-- Settles O45: only the `DECODE` family can be refused, and not for an input within the buffer. -/
theorem everyOperationCompletes : Obligations.EveryOperationCompletes := by
  intro i s hfit
  cases hn : inputLength i with
  | none => exact exec_completes_of_no_input hn s
  | some n =>
    obtain ⟨input, g, hexec, rfl⟩ := exec_of_inputLength hn s
    rw [hexec]
    exact State.decodeBy_completes (rxFits_of_le (hfit _ · hn)) g

/-- Settles O47: a word selects a row exactly when rule R77's table gives it a meaning, and the name of
the refusal tells the two kinds of other words apart. -/
theorem meaninglessWordsAreRefused : Obligations.MeaninglessWordsAreRefused := by
  intro s r rest n hp
  rw [← cmdOp_toNat, ← cmdArg_toNat, ← reservedOp_iff_toNat, ← mem_argOps_iff_toNat,
    ← mem_zeroArgOps_iff_toNat]
  refine ⟨fun hres => ?_, fun hop harg => ?_, fun h => ?_⟩
  · obtain ⟨harg, hzero⟩ := not_mem_of_reservedOp hres
    have hno : ¬ HasMeaning r.cmd := by simp [HasMeaning, harg, hzero]
    rw [runSteps_of_not_hasMeaning hp hno, if_pos hres]
  · have hne : cmdArg r.cmd ≠ 0x00#8 := fun h0 => harg (by rw [h0]; rfl)
    have hno : ¬ HasMeaning r.cmd := by
      simp [HasMeaning, not_mem_argOps_of_mem_zeroArgOps _ hop, hne]
    rw [runSteps_of_not_hasMeaning hp hno, reservedOp_of_mem_zeroArgOps _ hop]
    rfl
  · have hyes : HasMeaning r.cmd := h.imp_right fun ⟨hop, h0⟩ => ⟨hop, BitVec.eq_of_toNat_eq h0⟩
    obtain ⟨i, hd⟩ := decode_of_hasMeaning hyes
    obtain ⟨hstep, -⟩ := stepRunsDecodedInstruction
    exact ⟨i, hd, decode_wellFormed hd, hstep s r rest i hp hd⟩

end

/-! `RESET` and the state at power-on (70_reset_and_hazards.md rules R230 to R232). -/

namespace Sys2Proof.Machine

theorem exec_reset (s : State) : exec .reset s = .next (s.clear.answer .noValue) := rfl

/-- Rule R230's corner case: the power-on state holds what `RESET` writes. -/
theorem State.powerOn_clear_answer (c : Config) :
    (State.powerOn c).clear.answer .noValue = State.powerOn c := rfl

/-- The default caps lie within their bounds, and without an input limit there is none to check. -/
theorem Config.default_wf : Config.default.wf := by
  have hlimit : ∀ n ∈ Config.default.rxMaxLen, 5 ≤ n := nofun
  exact ⟨by decide, by decide, by decide, by decide, by decide, by decide, hlimit⟩

/-- Nothing is recorded, emitted or returned at power-on, so only the parameters are left to bound. -/
theorem State.powerOn_inv {c : Config} (hc : c.wf) : (State.powerOn c).Inv := by
  have hentry : ∀ k, EntryOk c k ((State.powerOn c).T.get k) := by
    intro k
    rw [State.powerOn_T, Tracker.get_empty]
    trivial
  have hframe : ∀ f ∈ (State.powerOn c).emitted, FrameOk f := nofun
  exact ⟨hc, hentry, hframe, trivial⟩

end Sys2Proof.Machine

section
open Sys2Proof Sys2Proof.Machine

/-- Settles O2: the word fixes the operation, which writes the empty tracker and 0xFFFF; both stand
there already at power-on. -/
theorem resetClearsTrackerAndAcc : Obligations.ResetClearsTrackerAndAcc :=
  ⟨decode_cmdWord (op := 0xF#4) (arg := 0x00#8) (row := .reset) (by decide) (by simp),
    fun s => ⟨_, exec_reset s, Tracker.get_empty, rfl, rfl, rfl, rfl, rfl⟩,
    fun c => by rw [exec_reset, State.powerOn_clear_answer]⟩

/-- Settles O53: the power-on state has the invariant once its parameters are within their bounds, and
the reset state is the power-on state of the default parameters. -/
theorem powerOnHasInvariant : Obligations.PowerOnHasInvariant :=
  ⟨fun _ => State.powerOn_inv, State.powerOn_inv Config.default_wf⟩

end

/-! The exception-code table (42_decoder.md rule R158). -/

namespace Sys2Proof.Machine

/-- The codes that rule R158 gives a description of their own. -/
def describedExceptionCodes : List U8 :=
  [0x01#8, 0x02#8, 0x03#8, 0x04#8, 0x05#8, 0x06#8, 0x08#8, 0x0A#8, 0x0B#8]

theorem excDesc_eq_unknownException_iff {e : U8} :
    excDesc e = .unknownException ↔ e ∉ describedExceptionCodes := by
  have hdescribed : ∀ c ∈ describedExceptionCodes, excDesc c ≠ .unknownException := by decide
  refine ⟨fun hdesc hmem => hdescribed e hmem hdesc, fun hmem => ?_⟩
  simp only [describedExceptionCodes, List.mem_cons, List.not_mem_nil, or_false, not_or] at hmem
  simp [excDesc, hmem]

theorem toNat_lt_of_mem_describedExceptionCodes :
    ∀ e ∈ describedExceptionCodes, e.toNat < 0x0C := by decide

end Sys2Proof.Machine

section
open Sys2Proof Sys2Proof.Machine

/-- Settles O29: the first twelve codes are looked up in the table, and every code with a description of
its own lies below 0x0C. -/
theorem exceptionCodeTable : Obligations.ExceptionCodeTable := by
  have hbeyond : ∀ e : U8, 0x0C ≤ e.toNat → excDesc e = .unknownException := fun e hle =>
    excDesc_eq_unknownException_iff.2 fun hmem =>
      absurd (toNat_lt_of_mem_describedExceptionCodes e hmem) (Nat.not_lt.2 hle)
  exact ⟨rfl, rfl, rfl, rfl, rfl, rfl, rfl, rfl, rfl, rfl, rfl, rfl, hbeyond⟩

end
